-- ==== Sys2Proof/Word.lean ====
section
/-! DEFINITION. The two word types of the CORE: the byte of its streams and the 10-bit sample of its frame store
(spec/00_scope.md R5, R6: every value is an unsigned bit vector, bit 0 its least significant bit). -/

namespace Sys2Proof

/-- One byte of the RX or TX stream (R44, R45). -/
abbrev Byte := BitVec 8

/-- A Sample, 'an unsigned integer with 10 significant bits (range 0–1023)' (R5, R9). -/
abbrev Sample := BitVec 10

end Sys2Proof
end

