-- ==== Sys2Proof/Config.lean ====
section
/-! DEFINITION. The parameters of the CORE (spec/00_scope.md R5). `Params` carries them as arguments of the model, so that
every meaning holds for every value of them. The OPEN ones have no value at `State.reset`: they are opaque constants. -/

namespace Sys2Proof

/-- The parameters of R5 that the CORE is built with. None of them is written by any rule. -/
structure Params where
  /-- The highest index of the frame store, NFRAME - 1: so NFRAME >= 1 holds by construction (R5). -/
  lastEntry : Nat
  /-- RETRY_LIMIT, any natural number, 0 included (R5, D9). -/
  retryLimit : Nat
  /-- TRIG_LEVEL, 0 to 1023 (R5, D8). -/
  trigLevel : Sample
  /-- BOOT_EMITS_DISCARD: whether reset pushes one forced-discard byte (R5, R232, D19). -/
  bootEmitsDiscard : Bool
  deriving DecidableEq, Repr

/-- NFRAME, the capacity of the frame store in entries (R5, R15). -/
def Params.nframe (p : Params) : Nat := p.lastEntry + 1

namespace Config

/-- LINE_MAX: 'max line length 16 bytes including terminator' (R5, R60). -/
def lineMax : Nat := 16

/-- NFRAME - 1 in the reference configuration, whose NFRAME is 480 (R5, R15). DESIGN CHOICE, log 2: the value at `State.reset`;
no meaning depends on it. -/
def referenceLastEntry : Nat := 479

/-- RETRY_LIMIT at `State.reset`: OPEN, 'OSC gives no value' (R5, D9; log 2). -/
opaque retryLimit : Nat

/-- TRIG_LEVEL at `State.reset`: OPEN, 'no value and no command that sets it' (R5, D8; log 2). -/
opaque trigLevel : Sample

/-- BOOT_EMITS_DISCARD at `State.reset`: OPEN, the source is silent (R5, D19; log 2). -/
opaque bootEmitsDiscard : Bool

/-- The parameters of the machine after `State.reset` (log 2). -/
def params : Params :=
  { lastEntry := referenceLastEntry, retryLimit := retryLimit, trigLevel := trigLevel,
    bootEmitsDiscard := bootEmitsDiscard }

end Config

end Sys2Proof
end

