-- ==== Sys2Proof/Syntax.lean ====
section
/-! DEFINITION. The instructions of the CORE: one constructor per row of spec/opcode_table.json, the ten host commands
(spec/30_encoding.md R60 to R66) and the six wire byte kinds (R67 to R72). An operand has exactly the width of its field in
the table, so no term holds an operand outside its domain (R62, R73). -/

namespace Sys2Proof

/-- One row of the opcode table with its operand. -/
inductive Instr where
  /-- `C<d>` SetContinuousMode (R160). -/
  | setContinuousMode (d : BitVec 2)
  /-- `B<d>` SetBurstMode (R161). -/
  | setBurstMode (d : BitVec 2)
  /-- `R0` SetRunState(Stop) (R162). -/
  | setRunStateStop
  /-- `R1` SetRunState(Run) (R163). -/
  | setRunStateRun
  /-- `R2` SetRunState(Single) (R164). -/
  | setRunStateSingle
  /-- `TP` SetTriggerMode, Positive (R165). -/
  | setTriggerModePositive
  /-- `TN` SetTriggerMode, Negative (R165). -/
  | setTriggerModeNegative
  /-- `TF` SetTriggerMode, Free (R165). -/
  | setTriggerModeFree
  /-- `G<d>` SetAuxOutput (R166). -/
  | setAuxOutput (d : BitVec 1)
  /-- `A<d>` SetChannel (R167). -/
  | setChannel (d : BitVec 2)
  /-- Byte 1 of a sample pair, `p` = sample bits 9 to 5 (R142). -/
  | sampleHi (p : BitVec 5)
  /-- Byte 2, Burst, non-final sample, `p` = sample bits 4 to 0 (R143, R141). -/
  | burstMid (p : BitVec 5)
  /-- Byte 2, Burst, final sample of the burst (R143, R141). -/
  | burstLast (p : BitVec 5)
  /-- Byte 2, Continuous, non-terminal sample (R143, R141). -/
  | contMid (p : BitVec 5)
  /-- Byte 2, Continuous, terminal sample (R143, R141). -/
  | contLast (p : BitVec 5)
  /-- The forced-discard control byte (R145). -/
  | discard
  deriving DecidableEq, Repr

/-- The stream on which an encoding stands: commands on RX (R60), wire bytes on TX (R67). -/
inductive ByteStream where
  | rx
  | tx
  deriving DecidableEq, Repr

/-- The stream of an instruction's encoding (R73: command rows and wire rows). -/
def Instr.stream : Instr → ByteStream
  | .setContinuousMode _ => .rx
  | .setBurstMode _ => .rx
  | .setRunStateStop => .rx
  | .setRunStateRun => .rx
  | .setRunStateSingle => .rx
  | .setTriggerModePositive => .rx
  | .setTriggerModeNegative => .rx
  | .setTriggerModeFree => .rx
  | .setAuxOutput _ => .rx
  | .setChannel _ => .rx
  | .sampleHi _ => .tx
  | .burstMid _ => .tx
  | .burstLast _ => .tx
  | .contMid _ => .tx
  | .contLast _ => .tx
  | .discard => .tx

end Sys2Proof
end

