-- ==== Sys2Proof/WellFormed.lean ====
section
/-! DEFINITION. When bytes are a well-formed encoding. The operands of `Instr` carry their domains in their types, so the
checks are on the forms that can be ill-formed: the content of a command line (spec/30_encoding.md R60 to R65) and a wire
byte (R68, R71). -/

namespace Sys2Proof.WellFormed

/-- The line has at most LINE_MAX - 1 content bytes (R60, R65). -/
def lengthOk (content : List Byte) : Bool := content.length < Config.lineMax

/-- The terminator 0x0a is not part of a line's content (R60). -/
def noTerminator (content : List Byte) : Bool := content.all (fun b => b != 0x0a#8)

/-- `line[0]` is one of the six command letters C B R T G A (R61). -/
def letterDefined (op : Byte) : Bool :=
  op == 0x43#8 || op == 0x42#8 || op == 0x52#8 || op == 0x54#8 || op == 0x47#8 || op == 0x41#8

/-- `line[1]` is in the argument domain of the letter `op` (R62, R63). -/
def argumentInDomain (op arg : Byte) : Bool :=
  if op == 0x54#8 then arg == 0x50#8 || arg == 0x4e#8 || arg == 0x46#8
  else if op == 0x52#8 then 0x30 ≤ arg.toNat && arg.toNat ≤ 0x32
  else if op == 0x47#8 then 0x30 ≤ arg.toNat && arg.toNat ≤ 0x31
  else 0x30 ≤ arg.toNat && arg.toNat ≤ 0x33

/-- The line has a defined letter and, as its second byte, an argument in that letter's domain; what follows is not examined
(R60, R61). -/
def letterAndArgument : List Byte → Bool
  | op :: arg :: _ => letterDefined op && argumentInDomain op arg
  | _ => false

/-- The content of a line that dispatches a command (R60 to R65). -/
def line (content : List Byte) : Bool :=
  lengthOk content && noTerminator content && letterAndArgument content

/-- A byte the CORE may push: its `flag` is not one of the reserved codes 100 and 111, and with flag 110 its payload is 0
(R68, R71). -/
def wireByte (b : Byte) : Bool :=
  let flag := b.extractLsb' 5 3
  flag != 4#3 && flag != 7#3 && (flag != 6#3 || b.extractLsb' 0 5 == 0#5)

end Sys2Proof.WellFormed

namespace Sys2Proof

/-- The bytes are a well-formed encoding on the stream: on RX a command line's content, on TX one byte. -/
def wellFormed : ByteStream → List Byte → Bool
  | .rx, content => WellFormed.line content
  | .tx, [b] => WellFormed.wireByte b
  | .tx, _ => false

end Sys2Proof
end

