-- ==== Sys2Proof/Decode.lean ====
section
/-! DEFINITION. The decoder, total on any bytes and rejecting by name, and after it the encoder. Commands: spec/30_encoding.md
R60 to R65, spec/43_protocol_codec.md R154. Wire bytes: R67 to R72. The ASCII codes are those of R61, R62, R63 (GK1). -/

namespace Sys2Proof

/-- Why bytes are no instruction (R64, R206, R207 for lines; R71, R72 for wire bytes). -/
inductive Reject where
  /-- The line has no content: no event at all (R64 (a), R206). -/
  | emptyLine
  /-- `line[0]` is not one of the six letters (R64 (b), R206). -/
  | unrecognizedCommand
  /-- The argument is missing or outside the letter's domain (R64 (c), R207). -/
  | unrecognizedArgument
  /-- The byte's flag is reserved, or it is a 110 with a payload (R71). -/
  | reservedWireByte
  /-- A wire form is exactly one byte (R67). -/
  | notOneByte
  deriving DecidableEq, Repr

/-- What a decoder answers: an instruction, or the reason there is none (the `NoOp` of R154 for a line). -/
inductive Decoded where
  | run (i : Instr)
  | reject (r : Reject)
  deriving DecidableEq, Repr

/-- The instruction, if there is one. -/
def Decoded.instr? : Decoded → Option Instr
  | .run i => some i
  | .reject _ => none

/-- The newline 0x0a that ends a command line (R60). -/
def newline : Byte := 0x0a#8

/-- The code of the digit `0` (R62). -/
def digitZero : Byte := 0x30#8

/-- R62: the operand `d = line[1] - 0x30`, legal when `0x30 <= line[1] <= 0x30 + dmax`. -/
def digit? (dmax : Nat) (arg : Byte) : Option Nat :=
  if digitZero.toNat ≤ arg.toNat ∧ arg.toNat ≤ digitZero.toNat + dmax then some (arg.toNat - digitZero.toNat) else none

/-- A digit operand of `w` bits handed to its instruction, or an UnrecognizedArgument (R62, R64 (c)). -/
def withDigit (w dmax : Nat) (arg : Byte) (form : BitVec w → Instr) : Decoded :=
  match digit? dmax arg with
  | some d => .run (form (BitVec.ofNat w d))
  | none => .reject .unrecognizedArgument

/-- The `R` command: digits 0, 1, 2 are three instructions (R62, R73). -/
def decodeRunState (arg : Byte) : Decoded :=
  match digit? 2 arg with
  | some 0 => .run .setRunStateStop
  | some 1 => .run .setRunStateRun
  | some _ => .run .setRunStateSingle
  | none => .reject .unrecognizedArgument

/-- The `T` command: case-sensitive letters P, N, F (R63). -/
def decodeTriggerMode (arg : Byte) : Decoded :=
  if arg = 0x50#8 then .run .setTriggerModePositive
  else if arg = 0x4e#8 then .run .setTriggerModeNegative
  else if arg = 0x46#8 then .run .setTriggerModeFree
  else .reject .unrecognizedArgument

/-- R154 on a line's first two bytes. -/
def decodePair (op arg : Byte) : Decoded :=
  if op = 0x43#8 then withDigit 2 3 arg .setContinuousMode
  else if op = 0x42#8 then withDigit 2 3 arg .setBurstMode
  else if op = 0x52#8 then decodeRunState arg
  else if op = 0x54#8 then decodeTriggerMode arg
  else if op = 0x47#8 then withDigit 1 1 arg .setAuxOutput
  else if op = 0x41#8 then withDigit 2 3 arg .setChannel
  else .reject .unrecognizedCommand

/-- `Decode(line, line_len)` on the content of a finished line: only `line[0]` and `line[1]` are read (R154). -/
def decodeLine : List Byte → Decoded
  | [] => .reject .emptyLine
  | [op] => if WellFormed.letterDefined op then .reject .unrecognizedArgument else .reject .unrecognizedCommand
  | op :: arg :: _ => decodePair op arg

/-- The 3-bit `flag` field of a wire byte, bits 7:5 (R67). -/
def wireFlag (b : Byte) : BitVec 3 := b.extractLsb' 5 3

/-- The 5-bit `payload` field of a wire byte, bits 4:0 (R67). -/
def wirePayload (b : Byte) : BitVec 5 := b.extractLsb' 0 5

/-- A wire byte classified by its flag alone (R68, R72); the reserved encodings of R71 are rejected. -/
def decodeWire (b : Byte) : Decoded :=
  let p := wirePayload b
  match (wireFlag b).toNat with
  | 0 => .run (.sampleHi p)
  | 1 => .run (.burstMid p)
  | 2 => .run (.burstLast p)
  | 3 => .run (.contMid p)
  | 5 => .run (.contLast p)
  | 6 => if p = 0#5 then .run .discard else .reject .reservedWireByte
  | _ => .reject .reservedWireByte

/-- The decoder of each stream's encodings, total on any bytes. -/
def decode : ByteStream → List Byte → Decoded
  | .rx, content => decodeLine content
  | .tx, [b] => decodeWire b
  | .tx, _ => .reject .notOneByte

/-- The ASCII digit of a 2-bit operand, `0x30 + d` (R62). -/
def encodeDigit {w : Nat} (d : BitVec w) : Byte := digitZero + BitVec.ofNat 8 d.toNat

/-- A wire byte from its two fields, `flag ++ payload` (R67). -/
def wire (flag : BitVec 3) (p : BitVec 5) : Byte := flag ++ p

/-- The bytes of an instruction: letter and argument of a command (without the newline), or the wire byte. -/
def encode : Instr → List Byte
  | .setContinuousMode d => [0x43#8, encodeDigit d]
  | .setBurstMode d => [0x42#8, encodeDigit d]
  | .setRunStateStop => [0x52#8, 0x30#8]
  | .setRunStateRun => [0x52#8, 0x31#8]
  | .setRunStateSingle => [0x52#8, 0x32#8]
  | .setTriggerModePositive => [0x54#8, 0x50#8]
  | .setTriggerModeNegative => [0x54#8, 0x4e#8]
  | .setTriggerModeFree => [0x54#8, 0x46#8]
  | .setAuxOutput d => [0x47#8, encodeDigit d]
  | .setChannel d => [0x41#8, encodeDigit d]
  | .sampleHi p => [wire 0#3 p]
  | .burstMid p => [wire 1#3 p]
  | .burstLast p => [wire 2#3 p]
  | .contMid p => [wire 3#3 p]
  | .contLast p => [wire 5#3 p]
  | .discard => [wire 6#3 0#5]

/-- The bytes a host sends for a command: its encoding and the newline (R60, R66). -/
def commandLine (i : Instr) : List Byte := encode i ++ [newline]

/-- The content bytes of a 16-bit command word of the opcode table, `line[0] ++ line[1]`: the first received byte in the high
byte (R73). -/
def tableLine (w : Nat) : List Byte := [BitVec.ofNat 8 (w / 256), BitVec.ofNat 8 w]

/-- The instruction this decoder reads from the opcode table's word `w`: a 16-bit command word, or an 8-bit wire byte (R73;
log 11). -/
def decodeTableWord (nbits w : Nat) : Option Instr :=
  if nbits = 16 then (decode .rx (tableLine w)).instr?
  else if nbits = 8 then (decode .tx [BitVec.ofNat 8 w]).instr?
  else none

end Sys2Proof
end

