-- ==== Sys2Proof/Machine/State.lean ====
section
/-! DEFINITION. The state of the CORE and of its environment as plain data (spec/10_state.md), the reasons a step can stop,
and the state after reset (R35). -/

namespace Sys2Proof.Machine

/-- AcquisitionMode (R21). -/
inductive AcquisitionMode where
  | burst
  | continuous
  deriving DecidableEq, Repr

/-- RunState (R22); the register's value 3 is never written and does not exist here (R114, D22). -/
inductive RunState where
  | stop
  | run
  | single
  deriving DecidableEq, Repr

/-- TriggerMode, the edge polarity register (R23); the register's value 3 does not exist here (R114, D22). -/
inductive TriggerMode where
  | free
  | risingEdge
  | fallingEdge
  deriving DecidableEq, Repr

/-- TriggerOutcome (R14). -/
inductive TriggerOutcome where
  | timedOut
  | satisfied
  deriving DecidableEq, Repr

/-- The sequencer register's eight values (R30). -/
inductive Phase where
  | drain
  | poll
  | bTrig
  | bFill
  | bXmit
  | cTrig
  | cRead
  | cXmit
  deriving DecidableEq, Repr

/-- The model's own: which part of the current phase's operation comes next (log 7). -/
inductive Micro where
  /-- The operation's initialisation. -/
  | start
  /-- Its loop body; in a transmitting phase, Byte 1 of a pair. -/
  | body
  /-- In a transmitting phase, Byte 2 of a pair. -/
  | low
  deriving DecidableEq, Repr

/-- One turn of the schedule: the CORE's, or one act of the environment (R51; log 1). -/
inductive Turn where
  /-- The CORE takes one step. -/
  | core
  /-- The host appends a byte to the RX stream (R44). -/
  | hostSends (b : Byte)
  /-- The tick source sets `tick_pending` (R87). -/
  | tickArrives
  /-- The transport drives port `tx_ready` (R80, R86). -/
  | transport (ready : Bool)
  /-- The power-on event, port `rst` (R230). -/
  | powerOn
  deriving DecidableEq, Repr

/-- What SampleSource sees when a conversion is requested: ports `adc_channel` and `adc_rate` (R80, R81). -/
structure AdcRequest where
  channel : BitVec 2
  rate : Nat
  deriving DecidableEq, Repr

/-- A store of `w`-bit entries by index: strictly rising indices, no entry equal to what an unlisted index reads as (log 6).
The line buffer is such a list of `Host.Cell`; the frame store's entries are 10 bits wide (R40, R43). -/
abbrev Memory (w : Nat) := List (Nat × BitVec w)

/-- What an entry that is not listed reads as. DESIGN CHOICE, log 6: the spec leaves the contents at reset unspecified (R35). -/
def Memory.unlisted (w : Nat) : BitVec w := 0#w

/-- The canonical form of a store. -/
abbrev Memory.wf {w : Nat} (m : Memory w) : Prop :=
  m.Pairwise (fun p q => p.1 < q.1) ∧ ∀ p ∈ m, p.2 ≠ Memory.unlisted w

/-- Why a step stops with a fault. -/
inductive Fault where
  /-- The AdcRead() in progress never returns: a stuck state, raised by the ADC read when no answer is to come (R82, R208;
  log 3). Safe: it is the spec's own stuck state. -/
  | hardwareStall
  /-- The byte in progress is not accepted and no act of the environment is to come before the CORE's step: the CORE hangs,
  raised by the completion of a TxPush (R86, R244; log 4). Safe: it is the spec's own hang. -/
  | transportHang
  /-- An index at or above NFRAME, raised by the frame store's accesses; no reachable state meets it (R41; log 15). Safe. -/
  | frameIndexOutOfRange
  /-- An index at or above LINE_MAX, raised by the line buffer's append; no reachable state meets it (R43; log 15). Safe. -/
  | lineIndexOutOfRange
  deriving DecidableEq, Repr

/-- Why an instruction has no meaning. -/
inductive Refusal where
  /-- No meaning yet, raised by an arm of `exec` alone. Safe. -/
  | notModelled (mnemonic : String)
  deriving DecidableEq, Repr

/-- The CORE's registers and memories, and what the model holds of its environment. -/
structure State where
  /-- The parameters, written by nothing (R5, R32 (a)). -/
  params : Params
  /-- `trig_prev`, the older entry of the sample history (R10). -/
  trigPrev : Sample
  /-- `trig_curr`, the newer entry of the sample history (R11). -/
  trigCurr : Sample
  /-- `trig_level` (R12). -/
  trigLevel : Sample
  /-- `retry_cnt` (R13). -/
  retryCnt : Nat
  /-- `trig_outcome` (R14). -/
  trigOutcome : TriggerOutcome
  /-- `buf`, the frame store (R15). -/
  buf : Memory 10
  /-- `wr_ptr` (R16). -/
  wrPtr : Nat
  /-- `rd_ptr` (R17). -/
  rdPtr : Nat
  /-- `burst_length` (R18). -/
  burstLength : Nat
  /-- `frame_count` (R19). -/
  frameCount : Nat
  /-- `mode` (R21). -/
  mode : AcquisitionMode
  /-- `run_state` (R22). -/
  runState : RunState
  /-- `trig_mode`, the edge polarity register (R23). -/
  trigMode : TriggerMode
  /-- `channel`, port `adc_channel` (R24). -/
  channel : BitVec 2
  /-- `aux_out`, port `aux_pin` (R25, R89). -/
  auxOut : BitVec 1
  /-- `rate_idx` (R26). -/
  rateIdx : BitVec 2
  /-- `adc_rate` in Hz, port `adc_rate` (R27). -/
  adcRate : Nat
  /-- `tick_rate` in Hz, port `tick_rate` (R28). -/
  tickRate : Nat
  /-- `tick_pending` (R29). -/
  tickPending : Bool
  /-- `phase`, the sequencer register (R30). -/
  phase : Phase
  /-- The model's own: the part of the phase's operation that comes next (log 7). -/
  micro : Micro
  /-- `line`, the command line buffer (R31). -/
  line : Memory 8
  /-- `line_len` (R31). -/
  lineLen : Nat
  /-- Bytes whose TxPush has begun and is not accepted yet, oldest first (R86, R170; log 4). -/
  txHeld : List Byte
  /-- Port `tx_ready` (R80). -/
  txReady : Bool
  /-- The RX stream, next byte first (R44). -/
  rx : List Byte
  /-- The TX stream, all bytes pushed since reset in push order (R45). -/
  tx : List Byte
  /-- The results of the coming conversions, next first (R46, R82; log 3). -/
  adcDraws : List Sample
  /-- The conversions requested since reset, in order (R81, R83; log 19). -/
  adcLog : List AdcRequest
  /-- The turns to come; when it is empty the CORE moves (R51; log 1). -/
  schedule : List Turn
  deriving DecidableEq, Repr

/-- The state after reset of a CORE with parameters `p` (R35, R231, R232): 'Burst mode, rate index 1 (48 kHz), Run state, Free
trigger, channel 0, auxiliary output low'. The unspecified registers are 0 (DESIGN CHOICE, log 5). -/
def State.resetOf (p : Params) : State :=
  { params := p
    trigPrev := 0#10
    trigCurr := 0#10
    trigLevel := p.trigLevel
    retryCnt := 0
    trigOutcome := .timedOut
    buf := []
    wrPtr := 0
    rdPtr := 0
    burstLength := p.nframe
    frameCount := 0
    mode := .burst
    runState := .run
    trigMode := .free
    channel := 0#2
    auxOut := 0#1
    rateIdx := 1#2
    adcRate := 48000
    tickRate := 8
    tickPending := false
    phase := .drain
    micro := .start
    line := []
    lineLen := 0
    txHeld := []
    txReady := true
    rx := []
    tx := if p.bootEmitsDiscard then [0xc0#8] else []
    adcDraws := []
    adcLog := []
    schedule := [] }

/-- The machine right after reset, in the reference configuration with the OPEN parameters left open (R35; log 2). -/
def State.reset : State := State.resetOf Config.params

/-- What a step or a meaning answers. -/
abbrev Result := Host.Outcome State Fault Refusal

end Sys2Proof.Machine
end

