-- ==== Sys2Proof/Machine/Ops.lean ====
section
/-! DEFINITION. The named operations on state: the primitives of spec/00_scope.md R7 and the one shared operation `raise` of
spec/60_exceptions.md R200. No other definition reads or writes a store, a stream or a port. -/

namespace Sys2Proof.Machine

/-- The entry at index `a`. -/
def Memory.read {w : Nat} : Memory w → Nat → BitVec w
  | [], _ => Memory.unlisted w
  | (k, v) :: m, a => if a = k then v else Memory.read m a

/-- The store with entry `a` set to `v`, in canonical form: the value an unlisted entry reads as is not listed. -/
def Memory.write {w : Nat} : Memory w → Nat → BitVec w → Memory w
  | [], a, v => if v = Memory.unlisted w then [] else [(a, v)]
  | (k, u) :: m, a, v =>
    if a < k then
      if v = Memory.unlisted w then (k, u) :: m else (a, v) :: (k, u) :: m
    else if a = k then
      if v = Memory.unlisted w then m else (a, v) :: m
    else (k, u) :: Memory.write m a v

/-- Successive entries written from index `a` upward. -/
def Memory.writeFrom {w : Nat} : Memory w → Nat → List (BitVec w) → Memory w
  | m, _, [] => m
  | m, a, v :: vs => Memory.writeFrom (Memory.write m a v) (a + 1) vs

/-- `MemWrite(i, 1, v)`: `buf[i] <- v`, for `0 <= i < NFRAME` (R41). An index outside the store does not exist (log 15). -/
def memWrite (i : Nat) (v : Sample) (s : State) (next : State → Result) : Result :=
  if i < s.params.nframe then next { s with buf := Memory.write s.buf i v } else .fault .frameIndexOutOfRange

/-- `AdcRead()`: one blocking conversion on the current channel at the current rate (R82). With no answer to come the read
never returns: HardwareStall, a stuck state (R208, log 3). -/
def adcRead (s : State) (next : Sample → State → Result) : Result :=
  match s.adcDraws with
  | [] => .fault .hardwareStall
  | v :: draws =>
    next v { s with
      adcDraws := draws
      adcLog := s.adcLog ++ [{ channel := s.channel, rate := s.adcRate }] }

/-- `TxPush(b)`: the byte joins the TX stream, or is held while the transport is not ready; it is never dropped and never
passes an earlier byte (R45, R86; log 4). -/
def txPush (b : Byte) (s : State) : State :=
  { s with
    tx := if s.txReady && s.txHeld.isEmpty then s.tx ++ [b] else s.tx
    txHeld := if s.txReady && s.txHeld.isEmpty then s.txHeld else s.txHeld ++ [b] }

/-- `phase <- p`: the sequencer moves to phase `p`, at the beginning of its operation (R7, R30). The transmission of a
Continuous sample has no initialisation, so it begins with its body (R187, R188). -/
def enter (p : Phase) (s : State) : State :=
  { s with phase := p, micro := match p with | .cXmit => .body | _ => .start }

/-- The pointers of the frame store while no fill and no read-out runs: 'a model may give each of them any fixed value' (V5 of
spec/93_implementation_defined.md). The value 0 of R120 and R124's first action keeps R34 (f) where `burst_length` becomes 1
(DESIGN CHOICE, log 12). -/
def idlePointers (s : State) : State := { s with wrPtr := 0, rdPtr := 0 }

/-- The events of the error taxonomy that the CORE handles and passes over (R201). -/
inductive Event where
  | triggerTimeout
  | commandOverflow
  | unrecognizedCommand
  | unrecognizedArgument
  deriving DecidableEq, Repr

/-- `raise <Event>`: the local, silent handling of the event; there is no trap, no saved state and no report (R200, R214).
TriggerTimeout's whole effect is the outcome (R105, R204), CommandOverflow's is the emptied line buffer (R205); the two
Unrecognized events change nothing (R206, R207). -/
def raiseEvent (e : Event) (s : State) : State :=
  match e with
  | .triggerTimeout => { s with trigOutcome := .timedOut }
  | .commandOverflow => { s with lineLen := 0 }
  | .unrecognizedCommand => s
  | .unrecognizedArgument => s

/-- The event a rejected line raises; an empty line is no event at all (R206, R207, 90_conflicts.md C10). -/
def rejectEvent : Reject → Option Event
  | .emptyLine => none
  | .unrecognizedCommand => some .unrecognizedCommand
  | .unrecognizedArgument => some .unrecognizedArgument
  | .reservedWireByte => none
  | .notOneByte => none

/-- The `NoOp` result of a rejected line: its event, handled (R154, R155). -/
def rejectLine (r : Reject) (s : State) : State :=
  match rejectEvent r with
  | some e => raiseEvent e s
  | none => s

/-- `Single` goes to `Stop`; the other run states stay (R185, R188). -/
def singleToStop (s : State) : State :=
  { s with runState := if s.runState = .single then .stop else s.runState }

end Sys2Proof.Machine
end

