-- ==== Sys2Proof/Machine/Environment.lean ====
section
/-! DEFINITION. The acts of the environment (spec/40_ports_and_collaborators.md R80, R85 to R88, spec/70_reset_and_hazards.md
R230) and the outputs it sees. -/

namespace Sys2Proof.Machine

/-- The host appends a byte to the RX stream (R44, R85). -/
def hostSends (b : Byte) (s : State) : State := { s with rx := s.rx ++ [b] }

/-- Tick arrival: `tick_pending <- 1`, without effect when it is 1 already (R87, R211). -/
def tickArrives (s : State) : State := { s with tickPending := true }

/-- The transport drives `tx_ready` (R80). -/
def transportReady (ready : Bool) (s : State) : State := { s with txReady := ready }

/-- The power-on event, at any time: the state after reset, with the environment's own future kept (R230, R233, D3; log 13). -/
def powerOn (s : State) : State :=
  { State.resetOf s.params with adcDraws := s.adcDraws, schedule := s.schedule }

/-- Port `adc_rate` (R80). -/
def adcRatePort (s : State) : Nat := s.adcRate

/-- Port `adc_channel` (R80). -/
def adcChannelPort (s : State) : BitVec 2 := s.channel

/-- Port `tick_rate` (R80). -/
def tickRatePort (s : State) : Nat := s.tickRate

/-- Port `aux_pin`, 'driven with aux_out at all times' (R89). -/
def auxPinPort (s : State) : BitVec 1 := s.auxOut

end Sys2Proof.Machine
end

