-- ==== Sys2Proof/Machine/Flags.lean ====
section
/-! DEFINITION. The flags of the CORE: the codec's 2-bit flag input (`cont`, `last`), its 3-bit wire flag and the OR-masks
(spec/30_encoding.md R68, spec/43_protocol_codec.md R140 to R147), and the encoder built from them. There is no status
register. -/

namespace Sys2Proof.Machine

/-- The 3-bit `flag` field of Byte 2, a table (R141). -/
def flagOf : (cont last : Bool) → BitVec 3
  | false, false => 1#3
  | false, true => 2#3
  | true, false => 3#3
  | true, true => 5#3

/-- The OR-mask of Byte 2, a table (R141). -/
def maskOf : (cont last : Bool) → Byte
  | false, false => 0x20#8
  | false, true => 0x40#8
  | true, false => 0x60#8
  | true, true => 0xa0#8

/-- Byte 1: `b1 = (s >> 5) & 0x1f` (R142). -/
def byte1 (v : Sample) : Byte := ((v >>> 5) &&& 0x1f#10).setWidth 8

/-- Byte 2: `b2 = (s & 0x1f) | mask` (R143). -/
def byte2 (v : Sample) (cont last : Bool) : Byte := (v &&& 0x1f#10).setWidth 8 ||| maskOf cont last

/-- `Encode(s, cont, last) = (b1, b2)`, the caller pushing `b1` first (R144). -/
def encodeSample (v : Sample) (cont last : Bool) : Byte × Byte := (byte1 v, byte2 v cont last)

/-- `EncodeDiscard() = 0xc0` (R145). -/
def encodeDiscard : Byte := 0xc0#8

/-- The host's decode law: `((b1 & 0x1f) << 5) | (b2 & 0x1f)` (R147). -/
def decodeSample (b1 b2 : Byte) : Sample :=
  ((b1 &&& 0x1f#8).setWidth 10 <<< 5) ||| (b2 &&& 0x1f#8).setWidth 10

/-- The wire instruction that sends Byte 1 of a sample: its bits 9 to 5 (R142). -/
def hiInstr (v : Sample) : Instr := .sampleHi (v.extractLsb' 5 5)

/-- The wire instruction that sends Byte 2 of a sample: its bits 4 to 0 under the kind the flag input selects (R141, R143). -/
def loInstr (v : Sample) : (cont last : Bool) → Instr
  | false, false => .burstMid (v.extractLsb' 0 5)
  | false, true => .burstLast (v.extractLsb' 0 5)
  | true, false => .contMid (v.extractLsb' 0 5)
  | true, true => .contLast (v.extractLsb' 0 5)

end Sys2Proof.Machine
end

