-- ==== Sys2Proof/Machine/Fetch.lean ====
section
/-! DEFINITION. How an instruction given by its bits is put where the next step performs it (log 10): a command line stands in
the line buffer with its newline next on the RX stream; a wire byte is the next one of a sample that is being sent. -/

namespace Sys2Proof.Machine

/-- The CORE moves next, in phase `p` at part `m`, with no byte held back. -/
def placeAt (p : Phase) (m : Micro) (s : State) : State :=
  { s with phase := p, micro := m, txHeld := [], schedule := .core :: s.schedule }

/-- A line of two content bytes, accumulated, and its newline next. -/
def placeLine (b0 b1 : Byte) (s : State) : State :=
  let t := placeAt .drain .start s
  { t with
    line := Memory.write (Memory.write t.line 0 b0) 1 b1
    lineLen := 2
    rx := newline :: t.rx }

/-- The next byte is Byte 1 of the live sample, whose bits 9 to 5 are `p`. -/
def placeByte1 (p : BitVec 5) (s : State) : State :=
  let t := placeAt .cXmit .body s
  { t with buf := Memory.write t.buf 0 (p ++ 0#5) }

/-- The next byte is Byte 2 of the live Continuous sample, whose bits 4 to 0 are `p`; the count makes it terminal or not. -/
def placeContByte2 (last : Bool) (p : BitVec 5) (s : State) : State :=
  let t := placeAt .cXmit .low s
  { t with
    buf := Memory.write t.buf 0 (0#5 ++ p)
    frameCount := if last then t.params.nframe else 0 }

/-- The next byte is Byte 2 of the first of at least two burst samples. -/
def placeBurstMid (p : BitVec 5) (s : State) : State :=
  let t := placeAt .bXmit .low s
  { t with
    buf := Memory.write t.buf 0 (0#5 ++ p)
    rdPtr := 0
    burstLength := if t.burstLength < 2 then 2 else t.burstLength }

/-- The next byte is Byte 2 of the last of the `length` burst samples. -/
def placeBurstLast (length : Nat) (p : BitVec 5) (s : State) : State :=
  let t := placeAt .bXmit .low s
  { t with
    buf := Memory.write t.buf (length - 1) (0#5 ++ p)
    rdPtr := length - 1
    burstLength := length }

/-- The next byte is the forced-discard byte of a command whose TxPush has begun. -/
def placeDiscard (s : State) : State := { placeAt .drain .start s with txHeld := [encodeDiscard], txReady := true }

/-- A wire byte put where the next step sends it. -/
def placeWireByte (b : Byte) (s : State) : State :=
  match decodeWire b with
  | .run (.sampleHi p) => placeByte1 p s
  | .run (.burstMid p) => placeBurstMid p s
  | .run (.burstLast p) =>
    placeBurstLast (if 1 ≤ s.burstLength ∧ s.burstLength ≤ s.params.nframe then s.burstLength else 1) p s
  | .run (.contMid p) => placeContByte2 false p s
  | .run (.contLast p) => placeContByte2 true p s
  | .run .discard => placeDiscard s
  | _ => s

/-- An instruction word of the opcode table, numbered as the table numbers it (R73), put where the next step performs it. -/
def placeTableWord (nbits w : Nat) (s : State) : State :=
  match nbits, tableLine w with
  | 16, [b0, b1] => placeLine b0 b1 s
  | 8, _ => placeWireByte (BitVec.ofNat 8 w) s
  | _, _ => s

end Sys2Proof.Machine
end

