-- ==== Sys2Proof/Machine/Operands.lean ====
section
/-! DEFINITION. What the operands of the host commands stand for: the rate tables of spec/00_scope.md R5 and the registers as
functions of (`mode`, `rate_idx`) of spec/10_state.md R27, R28. -/

namespace Sys2Proof.Machine

/-- BURST_TICK_HZ: 'a fixed 8 Hz frame-sync rate' (R5). -/
def burstTickHz : Nat := 8

/-- CONT_ADC_HZ: 'ADC rate fixed at 96 kHz regardless of requested divisor' (R5). -/
def contAdcHz : Nat := 96000

/-- BURST_ADC_HZ[d]: '9.6k/48k/96k/192k' (R5). -/
def burstAdcHz (d : BitVec 2) : Nat :=
  match d.toNat with
  | 0 => 9600
  | 1 => 48000
  | 2 => 96000
  | _ => 192000

/-- CONT_TICK_HZ[d]: 24, 48, 96, 480 (R5). -/
def contTickHz (d : BitVec 2) : Nat :=
  match d.toNat with
  | 0 => 24
  | 1 => 48
  | 2 => 96
  | _ => 480

end Sys2Proof.Machine
end

