-- ==== Sys2Proof/Machine/Commands.lean ====
section
/-! DEFINITION. The meanings of the host commands (spec/44_host_commands.md R160 to R170): register writes first, then the
forced discard where there is one (R170). -/

namespace Sys2Proof.Machine

/-- `C<d>` (R160). The idle pointers follow `burst_length` down, so that R34 (f) holds after the step (log 12). -/
def execSetContinuousMode (d : BitVec 2) (s : State) : Result :=
  .next (txPush encodeDiscard { idlePointers s with
    mode := .continuous
    burstLength := 1
    frameCount := 0
    rateIdx := d
    adcRate := contAdcHz
    tickRate := contTickHz d })

/-- `B<d>` (R161). -/
def execSetBurstMode (d : BitVec 2) (s : State) : Result :=
  .next (txPush encodeDiscard { s with
    mode := .burst
    burstLength := s.params.nframe
    frameCount := 0
    rateIdx := d
    adcRate := burstAdcHz d
    tickRate := burstTickHz })

/-- `R0` (R162): 'no side effect beyond state change'. -/
def execSetRunStateStop (s : State) : Result := .next { s with runState := .stop }

/-- `R1` (R163). -/
def execSetRunStateRun (s : State) : Result := .next { s with runState := .run, frameCount := 0 }

/-- `R2` (R164). -/
def execSetRunStateSingle (s : State) : Result :=
  .next (txPush encodeDiscard { s with runState := .single, frameCount := 0 })

/-- `TP` (R165, D7). -/
def execSetTriggerModePositive (s : State) : Result := .next { s with trigMode := .risingEdge }

/-- `TN` (R165, D7). -/
def execSetTriggerModeNegative (s : State) : Result := .next { s with trigMode := .fallingEdge }

/-- `TF` (R165). -/
def execSetTriggerModeFree (s : State) : Result := .next { s with trigMode := .free }

/-- `G<d>` (R166). -/
def execSetAuxOutput (d : BitVec 1) (s : State) : Result := .next { s with auxOut := d }

/-- `A<d>` (R167). -/
def execSetChannel (d : BitVec 2) (s : State) : Result := .next { s with channel := d }

end Sys2Proof.Machine
end

