-- ==== Sys2Proof/Machine/Wire.lean ====
section
/-! DEFINITION. The meanings of the wire byte kinds (spec/43_protocol_codec.md R142 to R145): each is the push of its one byte,
`flag ++ payload` (R67, R69; log 9). What the sequencer does after it stands in Machine/Sequencer.lean. -/

namespace Sys2Proof.Machine

/-- SAMPLE_HI: Byte 1, `0b000 ++ s[9:5]` (R142). -/
def execSampleHi (p : BitVec 5) (s : State) : Result := .next (txPush (wire 0#3 p) s)

/-- BURST_MID: Byte 2 of a non-final burst sample (R143). -/
def execBurstMid (p : BitVec 5) (s : State) : Result := .next (txPush (wire (flagOf false false) p) s)

/-- BURST_LAST: Byte 2 of the final sample of a burst (R143). -/
def execBurstLast (p : BitVec 5) (s : State) : Result := .next (txPush (wire (flagOf false true) p) s)

/-- CONT_MID: Byte 2 of a non-terminal Continuous sample (R143). -/
def execContMid (p : BitVec 5) (s : State) : Result := .next (txPush (wire (flagOf true false) p) s)

/-- CONT_LAST: Byte 2 of the terminal Continuous sample (R143). -/
def execContLast (p : BitVec 5) (s : State) : Result := .next (txPush (wire (flagOf true true) p) s)

/-- DISCARD: the forced-discard control byte (R145). -/
def execDiscard (s : State) : Result := .next (txPush encodeDiscard s)

end Sys2Proof.Machine
end

