-- ==== Sys2Proof/Machine/Dispatch.lean ====
section
/-! DEFINITION. The dispatch: one arm per row of spec/opcode_table.json. -/

namespace Sys2Proof.Machine

/-- The meaning of an instruction. -/
def exec (i : Instr) (s : State) : Host.Outcome State Fault Refusal :=
  match i with
  | .setContinuousMode d => Sys2Proof.Machine.execSetContinuousMode d s
  | .setBurstMode d => Sys2Proof.Machine.execSetBurstMode d s
  | .setRunStateStop => Sys2Proof.Machine.execSetRunStateStop s
  | .setRunStateRun => Sys2Proof.Machine.execSetRunStateRun s
  | .setRunStateSingle => Sys2Proof.Machine.execSetRunStateSingle s
  | .setTriggerModePositive => Sys2Proof.Machine.execSetTriggerModePositive s
  | .setTriggerModeNegative => Sys2Proof.Machine.execSetTriggerModeNegative s
  | .setTriggerModeFree => Sys2Proof.Machine.execSetTriggerModeFree s
  | .setAuxOutput d => Sys2Proof.Machine.execSetAuxOutput d s
  | .setChannel d => Sys2Proof.Machine.execSetChannel d s
  | .sampleHi p => Sys2Proof.Machine.execSampleHi p s
  | .burstMid p => Sys2Proof.Machine.execBurstMid p s
  | .burstLast p => Sys2Proof.Machine.execBurstLast p s
  | .contMid p => Sys2Proof.Machine.execContMid p s
  | .contLast p => Sys2Proof.Machine.execContLast p s
  | .discard => Sys2Proof.Machine.execDiscard s

end Sys2Proof.Machine
end

