-- ==== Sys2Proof/Machine/FrameBuffer.lean ====
section
/-! DEFINITION. The frame_buffer_manager (spec/42_frame_buffer_manager.md): the burst fill one entry per step (R120, R121), the
single read of Continuous mode (R123), and the bytes of a whole frame (R124). -/

namespace Sys2Proof.Machine

/-- R184: a Burst frame is sent when its wait was Satisfied and `run_state != Stop`. -/
def sendsFrame (s : State) : Bool := s.trigOutcome == .satisfied && s.runState != .stop

/-- The end of a fill: to the read-out or back to the drain (R30, R184). -/
def endFill (s : State) : State := if sendsFrame s then enter .bXmit s else enter .drain s

/-- One step of `FillBurst`: its start (R120), one entry (R121), or its end. -/
def fillStep (s : State) : Result :=
  match s.micro with
  | .start => .next { s with wrPtr := 0, micro := .body }
  | _ =>
    if s.wrPtr < s.burstLength then
      adcRead s fun v t => memWrite s.wrPtr v t fun u => .next { u with wrPtr := u.wrPtr + 1 }
    else .next (endFill s)

/-- `AdvanceOne`, and the sequencer moves on (R123, R30). -/
def advanceOne (s : State) : Result :=
  adcRead s fun v t => memWrite 0 v t fun u =>
    let done := { u with wrPtr := 1 }
    if done.runState = .stop then .next (enter .drain done) else .next (enter .cXmit done)

/-- The end of a Burst read-out: `Single` goes to `Stop`, back to the drain (R185). -/
def endFrame (s : State) : State := enter .drain (singleToStop s)

/-- The two bytes of entry `i` of a burst of `length` samples (R124). -/
def entryBytes (buf : Memory 10) (length i : Nat) : List Byte :=
  let pair := encodeSample (Memory.read buf i) false (decide (i + 1 = length))
  [pair.1, pair.2]

/-- The bytes of a whole read-out, in index order, two for each sample (R124). -/
def frameBytes (buf : Memory 10) (length : Nat) : List Byte := (List.range length).flatMap (entryBytes buf length)

end Sys2Proof.Machine
end

