-- ==== Sys2Proof/Machine/LineBuffer.lean ====
section
/-! DEFINITION. The line accumulator of the protocol_codec (spec/43_protocol_codec.md R150 to R153). -/

namespace Sys2Proof.Machine

/-- The content accumulated so far, `line[0 .. line_len-1]` (R151, R154). -/
def lineContent (s : State) : List Byte := (List.range s.lineLen).map (Memory.read s.line)

/-- `line[line_len] <- b; line_len <- line_len + 1` (R152). -/
def storeByte (b : Byte) (s : State) : State :=
  { s with line := Memory.write s.line s.lineLen b, lineLen := s.lineLen + 1 }

/-- The append of a byte other than the newline, with the overflow at 16 bytes (R152, R153). An index outside the buffer does
not exist (R43, log 15). -/
def appendByte (b : Byte) (s : State) : Result :=
  if s.lineLen < Config.lineMax then
    let t := storeByte b s
    if t.lineLen = Config.lineMax then .next (raiseEvent .commandOverflow t) else .next t
  else .fault .lineIndexOutOfRange

/-- `line_len <- 0` after a dispatch (R151). -/
def resetLine (s : State) : State := { s with lineLen := 0 }

/-- A finished line that is no command: the `NoOp`, and the buffer reset (R155, R151). -/
def ignoreLine (r : Reject) (s : State) : State := resetLine (rejectLine r s)

end Sys2Proof.Machine
end

