-- ==== Sys2Proof/Machine/Trigger.lean ====
section
/-! DEFINITION. The trigger_edge_detector (spec/41_trigger_edge_detector.md): one iteration of the trigger wait per step (R100 to
R105), and the whole wait as one function of the samples offered (R106). -/

namespace Sys2Proof.Machine

/-- The edge predicate of one iteration: 'RisingEdge fires when prev > level && curr <= level', 'FallingEdge fires when prev <
level && curr >= level', unsigned 10-bit compares (R103, R104, R110). Free 'always satisfies immediately' (R23). -/
def edgeFires (m : TriggerMode) (level prev curr : Sample) : Bool :=
  match m with
  | .free => true
  | .risingEdge => decide (level.toNat < prev.toNat) && decide (curr.toNat ≤ level.toNat)
  | .fallingEdge => decide (prev.toNat < level.toNat) && decide (level.toNat ≤ curr.toNat)

/-- The end of a wait: its outcome, and the sequencer moves on (R100, R30). -/
def endWait (o : TriggerOutcome) (after : Phase) (s : State) : State := enter after { s with trigOutcome := o }

/-- The initialisation of an edge-mode wait (R101). -/
def beginWait (s : State) : State :=
  { s with trigPrev := s.trigLevel, trigCurr := s.trigLevel, retryCnt := 0, micro := .body }

/-- The shift and the count of one iteration whose read gave `v` (R102). -/
def shiftSample (v : Sample) (s : State) : State :=
  { s with trigPrev := s.trigCurr, trigCurr := v, retryCnt := s.retryCnt + 1 }

/-- One iteration of an edge-mode wait, or its timeout (R102 to R105). -/
def waitIteration (after : Phase) (s : State) : Result :=
  if s.retryCnt < s.params.retryLimit then
    adcRead s fun v t =>
      if edgeFires s.trigMode s.trigLevel s.trigCurr v then .next (endWait .satisfied after (shiftSample v t))
      else .next (shiftSample v t)
  else .next (enter after (raiseEvent .triggerTimeout s))

/-- One step of `TedWait` in a phase whose next phase is `after`: Free ends at once with zero reads (R100), an edge mode begins
(R101) or iterates. -/
def waitStep (after : Phase) (s : State) : Result :=
  match s.trigMode with
  | .free => .next (endWait .satisfied after s)
  | _ =>
    match s.micro with
    | .start => .next (beginWait s)
    | _ => waitIteration after s

/-- What a whole wait does (R106): outcome, number of reads, and the history registers at its end. -/
structure WaitResult where
  outcome : TriggerOutcome
  reads : Nat
  prev : Sample
  curr : Sample
  deriving DecidableEq, Repr

/-- The remaining `budget` iterations of an edge-mode wait on the samples offered, from the history (`prev`, `curr`); none when
the samples run out first, a HardwareStall. -/
def scanEdges (m : TriggerMode) (level : Sample) : (budget : Nat) → (prev curr : Sample) → List Sample → Option WaitResult
  | 0, prev, curr, _ => some { outcome := .timedOut, reads := 0, prev := prev, curr := curr }
  | _ + 1, _, _, [] => none
  | budget + 1, _, curr, v :: vs =>
    if edgeFires m level curr v then some { outcome := .satisfied, reads := 1, prev := curr, curr := v }
    else (scanEdges m level budget curr v vs).map fun r => { r with reads := r.reads + 1 }

/-- `TedWait(m, level, s, L)` for an edge mode `m` (R106). -/
def tedWait (m : TriggerMode) (level : Sample) (limit : Nat) (draws : List Sample) : Option WaitResult :=
  scanEdges m level limit level level draws

end Sys2Proof.Machine
end

