-- ==== Sys2Proof/Machine/Sequencer.lean ====
section
/-! DEFINITION. The sequencer (spec/10_state.md R30, spec/45_acquisition_control_fsm.md R180 to R188): which instruction the
CORE performs next, what follows it, and the actions that are no row of the opcode table. -/

namespace Sys2Proof.Machine

/-- In DRAIN, the command of the accumulated line when the next RX byte is the newline (R151, R154). -/
def fetchedCommand (s : State) : Option Instr :=
  match s.rx with
  | [] => none
  | b :: _ => if b = newline then (decodeLine (lineContent s)).instr? else none

/-- In B_XMIT, the wire byte of the entry at `rd_ptr` (R124). -/
def fetchedBurstByte (s : State) : Option Instr :=
  if s.rdPtr < s.params.nframe then
    let v := Memory.read s.buf s.rdPtr
    match s.micro with
    | .start => none
    | .body => if s.rdPtr < s.burstLength then some (hiInstr v) else none
    | .low => some (loInstr v false (decide (s.rdPtr + 1 = s.burstLength)))
  else none

/-- In C_XMIT, the wire byte of the one live sample `buf[0]` (R186 to R188): terminal when `frame_count >= NFRAME`. -/
def fetchedContByte (s : State) : Option Instr :=
  let v := Memory.read s.buf 0
  match s.micro with
  | .low => some (loInstr v true (decide (s.params.nframe ≤ s.frameCount)))
  | _ => some (hiInstr v)

/-- The instruction the CORE performs in its next step, if that step performs one (R30; log 9). -/
def fetched (s : State) : Option Instr :=
  match s.phase with
  | .drain => fetchedCommand s
  | .bXmit => fetchedBurstByte s
  | .cXmit => fetchedContByte s
  | .poll => none
  | .bTrig => none
  | .bFill => none
  | .cTrig => none
  | .cRead => none

/-- What fetching consumes: in DRAIN the newline is taken from the RX stream (R85, R151). -/
def consumed (s : State) : State :=
  match s.phase with
  | .drain => { s with rx := s.rx.tail }
  | _ => s

/-- After Byte 2 of a Burst sample: the pointer advances; after the last sample the frame ends (R124, R185). -/
def afterBurstPair (s : State) : State :=
  let t := { s with rdPtr := s.rdPtr + 1 }
  if t.rdPtr < t.burstLength then { t with micro := .body } else endFrame t

/-- After Byte 2 of a Continuous sample: the count, and at the terminal sample `Single` goes to `Stop` (R187, R188). -/
def afterContPair (s : State) : State :=
  if s.params.nframe ≤ s.frameCount then enter .drain (singleToStop { s with frameCount := 0 })
  else enter .drain { s with frameCount := s.frameCount + 1 }

/-- What the sequencer does when an instruction is complete: a dispatch resets the line (R151), Byte 1 is followed by Byte 2,
a pair by the bookkeeping of its phase. -/
def retired (s : State) : State :=
  match s.phase with
  | .drain => resetLine s
  | .bXmit => match s.micro with | .low => afterBurstPair s | _ => { s with micro := .low }
  | .cXmit => match s.micro with | .low => afterContPair s | _ => { s with micro := .low }
  | .poll => s
  | .bTrig => s
  | .bFill => s
  | .cTrig => s
  | .cRead => s

/-- An instruction is complete when the transport holds none of its bytes back (R86, R170; log 4). -/
def retire (s : State) : State := if s.txHeld.isEmpty then retired s else s

/-- The instruction performed, and what follows it. -/
def issue (i : Instr) (s : State) : Result :=
  match exec i s with
  | .next t => .next (retire t)
  | .fault f => .fault f
  | .refused r => .refused r

/-- DRAIN when no command is dispatched: an empty RX stream ends the drain, another byte is accumulated, a finished line that is
no command is ignored (R181, R150, R155). -/
def drainStep (s : State) : Result :=
  match s.rx with
  | [] => .next (enter .poll s)
  | b :: rest =>
    let t := { s with rx := rest }
    if b = newline then
      match decodeLine (lineContent t) with
      | .run i => issue i t
      | .reject r => .next (ignoreLine r t)
    else appendByte b t

/-- `TickTake()`: the flag is read and cleared in one action (R88). -/
def tickTake (s : State) : Bool × State := (s.tickPending, { s with tickPending := false })

/-- POLL: `TickTake()`, then the tick transition that `mode` selects (R30, R182, R183, R186). -/
def pollStep (s : State) : State :=
  let (tick, t) := tickTake s
  if tick then
    match t.mode with
    | .burst => enter .bTrig t
    | .continuous => if t.frameCount = 0 then enter .cTrig t else enter .cRead t
  else enter .drain t

/-- B_XMIT when no byte is to be sent: the start of the read-out, its end when the loop's condition fails, or an index that does
not exist (R124, R41). -/
def readOutStep (s : State) : Result :=
  match s.micro with
  | .start => .next { s with rdPtr := 0, micro := .body }
  | _ => if s.rdPtr < s.params.nframe then .next (endFrame s) else .fault .frameIndexOutOfRange

/-- A step of the CORE that performs no row of the opcode table (R30, R73). -/
def internalStep (s : State) : Result :=
  match s.phase with
  | .drain => drainStep s
  | .poll => .next (pollStep s)
  | .bTrig => waitStep .bFill s
  | .bFill => fillStep s
  | .bXmit => readOutStep s
  | .cTrig => waitStep .cRead s
  | .cRead => advanceOne s
  | .cXmit => .next s

/-- The completion of a TxPush that the transport held back: the oldest held byte joins the TX stream when the transport is
ready, and the CORE hangs while it is not (R86, R244; log 4). -/
def completePush (b : Byte) (held : List Byte) (s : State) : Result :=
  if s.txReady then .next (retire { s with tx := s.tx ++ [b], txHeld := held }) else .fault .transportHang

/-- One step of the CORE. -/
def coreStep (s : State) : Result :=
  match s.txHeld with
  | b :: held => completePush b held s
  | [] =>
    match fetched s with
    | some i => issue i (consumed s)
    | none => internalStep s

end Sys2Proof.Machine
end

