-- ==== Sys2Proof/Machine/Step.lean ====
section
/-! DEFINITION. One step of the machine: the next turn of the schedule, the CORE's or one act of the environment (spec/20_memory.md
R51; log 1). -/

namespace Sys2Proof.Machine

/-- One turn. -/
def turnStep (t : Turn) (s : State) : Host.Outcome State Fault Refusal :=
  match t with
  | .core => coreStep s
  | .hostSends b => .next (hostSends b s)
  | .tickArrives => .next (tickArrives s)
  | .transport ready => .next (transportReady ready s)
  | .powerOn => .next (powerOn s)

/-- One step: the schedule's next turn, and the CORE's when the schedule is empty. -/
def step (s : State) : Host.Outcome State Fault Refusal :=
  match s.schedule with
  | [] => coreStep s
  | t :: rest => turnStep t { s with schedule := rest }

/-- The state with the instruction word `w` of the opcode table placed where the next step performs it (log 10). -/
def State.withFetchWord (s : State) (nbits w : Nat) : State := placeTableWord nbits w s

end Sys2Proof.Machine
end

