-- ==== Sys2Proof/Machine/Transitions.lean ====
section
/-! DEFINITION. The tick transitions as whole functions, the coarse model that spec/45_acquisition_control_fsm.md R182 allows:
each consumes a finite list of AdcRead() draws and appends a finite list of bytes to TX (R184, R186). The step by step machine
of Machine/Sequencer.lean is the model; that the two agree is stated in the obligations. -/

namespace Sys2Proof.Machine

/-- `n` conversions on the current channel at the current rate, consumed and recorded (R82, R83). -/
def takeDraws (n : Nat) (s : State) : State :=
  { s with
    adcDraws := s.adcDraws.drop n
    adcLog := s.adcLog ++ List.replicate n { channel := s.channel, rate := s.adcRate } }

/-- The whole trigger wait (R100, R106), or none when the ADC stalls in it. `retry_cnt` ends at the number of reads. -/
def wholeWait (s : State) : Option State :=
  match s.trigMode with
  | .free => some { s with trigOutcome := .satisfied }
  | _ =>
    (tedWait s.trigMode s.trigLevel s.params.retryLimit s.adcDraws).map fun r =>
      { takeDraws r.reads s with
        trigPrev := r.prev
        trigCurr := r.curr
        retryCnt := r.reads
        trigOutcome := r.outcome }

/-- The whole burst fill: `buf[i] == s_i` for the next `burst_length` draws (R122), or none when the ADC stalls in it. -/
def wholeFill (s : State) : Option State :=
  if s.burstLength ≤ s.adcDraws.length then
    some { takeDraws s.burstLength s with
      buf := Memory.writeFrom s.buf 0 (s.adcDraws.take s.burstLength)
      wrPtr := s.burstLength }
  else none

/-- The whole read-out of a frame (R124). -/
def wholeReadOut (s : State) : State :=
  { s with tx := s.tx ++ frameBytes s.buf s.burstLength, rdPtr := s.burstLength }

/-- `TickBurst()` (R184), from the tick to the next drain; none when the ADC stalls in it (R208). -/
def tickBurst (s : State) : Option State :=
  match wholeWait s with
  | none => none
  | some w =>
    match wholeFill w with
    | none => none
    | some f => some (if sendsFrame f then endFrame (wholeReadOut f) else enter .drain f)

/-- `AdvanceOne` whole: one read, stored as the one live sample (R123). -/
def wholeAdvance (s : State) : Option State :=
  match s.adcDraws with
  | [] => none
  | v :: _ => some { takeDraws 1 s with buf := Memory.write s.buf 0 v, wrPtr := 1 }

/-- `SendNonTerminal` or `SendTerminal` on the live sample (R187, R188). -/
def wholeSend (s : State) : State :=
  let terminal := decide (s.params.nframe ≤ s.frameCount)
  let pair := encodeSample (Memory.read s.buf 0) true terminal
  let t := { s with tx := s.tx ++ [pair.1, pair.2] }
  if terminal then singleToStop { t with frameCount := 0 } else { t with frameCount := t.frameCount + 1 }

/-- `TickContinuous()` (R186), from the tick to the next drain; none when the ADC stalls in it (R208). -/
def tickContinuous (s : State) : Option State :=
  match if s.frameCount = 0 then wholeWait s else some s with
  | none => none
  | some w =>
    match wholeAdvance w with
    | none => none
    | some a => some (enter .drain (if a.runState = .stop then a else wholeSend a))

end Sys2Proof.Machine
end

