-- ==== Sys2Proof/Safety.lean ====
section
/-! DEFINITION. What a good state is, in the terms the claims use: the invariants of spec/10_state.md R34, the sequencing of
R30, and the grammar of the TX stream (spec/30_encoding.md R70 to R72). -/

namespace Sys2Proof.Machine

/-- `k` steps of the machine, stopping at the first fault or refusal. -/
def runSteps : Nat → State → Result
  | 0, s => .next s
  | k + 1, s =>
    match step s with
    | .next t => runSteps k t
    | .fault f => .fault f
    | .refused r => .refused r

/-- PTR_W, 'smallest w with 2^w > NFRAME' (R5, D12). -/
def ptrWidth (p : Params) : Nat := Nat.log2 p.nframe + 1

/-- Where a receiver stands in the TX stream (R72): between two messages, after a Byte 1, or at an encoding the CORE never
emits (R71). -/
inductive WireState where
  | between
  | afterByte1
  | broken
  deriving DecidableEq, Repr

/-- One byte further (R71, R72): Byte 2 only right after Byte 1, Byte 1 and the discard byte only between messages. -/
def wireNext (w : WireState) (b : Byte) : WireState :=
  match w, decodeWire b with
  | .between, .run (.sampleHi _) => .afterByte1
  | .between, .run .discard => .between
  | .afterByte1, .run (.burstMid _) => .between
  | .afterByte1, .run (.burstLast _) => .between
  | .afterByte1, .run (.contMid _) => .between
  | .afterByte1, .run (.contLast _) => .between
  | _, _ => .broken

/-- Where a receiver of the whole stream stands. -/
def wireScan (bytes : List Byte) : WireState := bytes.foldl wireNext .between

/-- The phases that transmit samples (R30). -/
def transmits : Phase → Bool
  | .bXmit => true
  | .cXmit => true
  | _ => false

/-- Where the TX stream stands: after Byte 1 exactly while Byte 2 of the same sample is next. -/
def wireNow (s : State) : WireState :=
  if transmits s.phase && s.micro == .low then .afterByte1 else .between

/-- Where it stands when the byte the transport holds back has joined it. -/
def wireHeld (s : State) : WireState :=
  if transmits s.phase && s.micro != .low then .afterByte1 else .between

/-- The registers' invariants, R34 (a), (b), (e) to (h); the types hold (c) and (d). R13 bounds the retry count. -/
structure RegisterInv (s : State) : Prop where
  /-- R34 (a) -/
  burstLength : s.burstLength = match s.mode with | .burst => s.params.nframe | .continuous => 1
  /-- R34 (b) -/
  frameCount : s.frameCount ≤ s.params.nframe
  /-- R34 (e) -/
  lineLen : s.lineLen < Config.lineMax
  /-- R34 (f), R16; log 12 -/
  wrPtr : s.wrPtr ≤ s.burstLength
  /-- R34 (f), R17; log 12 -/
  rdPtr : s.rdPtr ≤ s.burstLength
  /-- R13 -/
  retryCnt : s.retryCnt ≤ s.params.retryLimit
  /-- R34 (g) -/
  adcRate : s.adcRate = match s.mode with | .burst => burstAdcHz s.rateIdx | .continuous => contAdcHz
  /-- R34 (g) -/
  tickRate : s.tickRate = match s.mode with | .burst => burstTickHz | .continuous => contTickHz s.rateIdx
  /-- R34 (h) -/
  trigLevel : s.trigLevel = s.params.trigLevel

/-- The stores keep their canonical form and hold no index outside them (R40, R43). -/
structure StoreInv (s : State) : Prop where
  buf : Memory.wf s.buf
  line : Memory.wf s.line
  bufIndex : ∀ e ∈ s.buf, e.1 < s.params.nframe
  lineIndex : ∀ e ∈ s.line, e.1 < Config.lineMax

/-- What each phase of R30 is entered under. -/
structure PhaseInv (s : State) : Prop where
  burst : s.phase = .bTrig ∨ s.phase = .bFill ∨ s.phase = .bXmit → s.mode = .burst
  continuous : s.phase = .cTrig ∨ s.phase = .cRead ∨ s.phase = .cXmit → s.mode = .continuous
  frame : s.phase = .bXmit → s.trigOutcome = .satisfied
  running : transmits s.phase = true → s.runState ≠ .stop
  resync : s.phase = .cTrig → s.frameCount = 0
  readOut : s.phase = .bXmit → s.micro ≠ .start → s.rdPtr < s.burstLength
  contStarted : s.phase = .cXmit → s.micro ≠ .start
  low : s.micro = .low → transmits s.phase = true

/-- The TX stream is one that R70 to R72 describe, with at most one byte held back by the transport. -/
structure WireInv (s : State) : Prop where
  sent : wireScan s.tx = wireNow s
  held : s.txHeld = [] ∨
    ∃ b, s.txHeld = [b] ∧ wireScan (s.tx ++ [b]) = wireHeld s ∧
      (s.phase = .drain ∨ s.phase = .cXmit ∨ (s.phase = .bXmit ∧ s.micro ≠ .start))

/-- A good state. -/
structure GoodState (s : State) : Prop where
  registers : RegisterInv s
  stores : StoreInv s
  phases : PhaseInv s
  wire : WireInv s

/-- The transport takes a byte at once: none is held back, and it is ready (R86). -/
structure TransportFree (s : State) : Prop where
  txReady : s.txReady = true
  txHeld : s.txHeld = []

/-- The CORE is the one that moves next: the environment has no turn before it. -/
def coreMoves (s : State) : Prop := s.schedule = [] ∨ ∃ rest, s.schedule = .core :: rest

/-- A finished line with this content changes nothing: its newline is taken and the buffer is empty (R155, R206, R207). -/
def DispatchesNothing (content : List Byte) : Prop :=
  ∀ (s : State) (rest : List Byte), s.txHeld = [] → s.phase = .drain → s.rx = 0x0a#8 :: rest → lineContent s = content →
    coreStep s = .next { s with rx := rest, lineLen := 0 }

/-- The phases of the trigger wait with the phase that follows (R30). -/
def waitPhases : List (Phase × Phase) := [(.bTrig, .bFill), (.cTrig, .cRead)]

/-- The CORE's next step makes a conversion (R83). -/
def readsAdc (s : State) : Prop :=
  ((s.phase = .bTrig ∨ s.phase = .cTrig) ∧ s.trigMode ≠ .free ∧ s.micro ≠ .start ∧
    s.retryCnt < s.params.retryLimit) ∨
  (s.phase = .bFill ∧ s.micro ≠ .start ∧ s.wrPtr < s.burstLength) ∨
  s.phase = .cRead

/-- `p_k` of R106: `p_0` is the level, `p_k` the k-th of the samples offered. -/
def sampleAt (level : Sample) (draws : List Sample) : Nat → Sample
  | 0 => level
  | k + 1 => draws.getD k level

/-- `hit(k)` of R106: the edge predicate of R103 or R104 on the pair (`p_(k-1)`, `p_k`). -/
def hitAt (m : TriggerMode) (level : Sample) (draws : List Sample) (k : Nat) : Prop :=
  match m with
  | .free => False
  | .risingEdge => (sampleAt level draws (k - 1)).toNat > level.toNat ∧ (sampleAt level draws k).toNat ≤ level.toNat
  | .fallingEdge => (sampleAt level draws (k - 1)).toNat < level.toNat ∧ (sampleAt level draws k).toNat ≥ level.toNat

/-- `n` Continuous tick transitions, one after the other (R186). -/
def contTicks : Nat → State → Option State
  | 0, s => some s
  | n + 1, s => (tickContinuous s).bind (contTicks n)

/-- The bytes an instruction pushes: one discard byte for `C`, `B`, `R2` (R168), a wire row its own byte, the rest none. -/
def pushedBytes : Instr → List Byte
  | .setContinuousMode _ => [0xc0#8]
  | .setBurstMode _ => [0xc0#8]
  | .setRunStateStop => []
  | .setRunStateRun => []
  | .setRunStateSingle => [0xc0#8]
  | .setTriggerModePositive => []
  | .setTriggerModeNegative => []
  | .setTriggerModeFree => []
  | .setAuxOutput _ => []
  | .setChannel _ => []
  | .sampleHi p => encode (.sampleHi p)
  | .burstMid p => encode (.burstMid p)
  | .burstLast p => encode (.burstLast p)
  | .contMid p => encode (.contMid p)
  | .contLast p => encode (.contLast p)
  | .discard => encode .discard

/-- A result with its next state changed. -/
def mapNext (f : State → State) : Result → Result
  | .next t => .next (f t)
  | .fault e => .fault e
  | .refused r => .refused r

end Sys2Proof.Machine
end

