-- ==== Sys2Proof/Certificates/Slice0/Obligations.lean ====
section
/-! DEFINITION. The statements for the provers, from the numbered rules of spec/. Each is stated for every parameter set (a field
of the state), and record equalities say the whole frame: a field that a right side does not name is unchanged, every entry of
the frame store and every byte of the line buffer among them. -/

section
open Sys2Proof Sys2Proof.Machine

/-! ### Encodings -/

/-- R60 to R63, R154: a line decodes to an instruction exactly when it begins with that instruction's letter and argument,
whatever follows. -/
def Obligations.LineDecodesExactlyItsEncoding : Prop :=
  ∀ (content : List Byte) (i : Instr),
    decodeLine content = .run i ↔ i.stream = .rx ∧ ∃ rest, content = encode i ++ rest

/-- R67 to R72: a wire byte decodes to an instruction exactly when it is that instruction's byte. -/
def Obligations.WireByteDecodesExactlyItsEncoding : Prop :=
  ∀ (b : Byte) (i : Instr), decodeWire b = .run i ↔ i.stream = .tx ∧ encode i = [b]

/-- R206, R207: which lines are no command, why, and that they do nothing; a defined letter is one of C B R T G A. An empty line
is no event at all and does nothing either. -/
def Obligations.IgnoredLinesAreRejectedByName : Prop :=
  (decodeLine [] = .reject .emptyLine ∧ DispatchesNothing []) ∧
  (∀ (op : Byte) (rest : List Byte), op ∉ [0x43#8, 0x42#8, 0x52#8, 0x54#8, 0x47#8, 0x41#8] →
    decodeLine (op :: rest) = .reject .unrecognizedCommand ∧ DispatchesNothing (op :: rest)) ∧
  (∀ op : Byte, op ∈ [0x43#8, 0x42#8, 0x52#8, 0x54#8, 0x47#8, 0x41#8] →
    decodeLine [op] = .reject .unrecognizedArgument ∧ DispatchesNothing [op]) ∧
  (∀ (op arg : Byte) (rest : List Byte), op ∈ [0x43#8, 0x42#8, 0x52#8, 0x54#8, 0x47#8, 0x41#8] →
    (∀ i, encode i ≠ [op, arg]) →
      decodeLine (op :: arg :: rest) = .reject .unrecognizedArgument ∧ DispatchesNothing (op :: arg :: rest))

/-- R60 to R65: among contents of at most 15 bytes without a newline, the well-formed ones are those that dispatch a command. -/
def Obligations.WellFormedLinesAreTheDispatchedOnes : Prop :=
  ∀ content : List Byte, content.length < 16 → 0x0a#8 ∉ content →
    (wellFormed .rx content = true ↔ ∃ i, decodeLine content = .run i)

/-- R73: the decoder reads a 16-bit word as the command row whose `match` the masked word equals, and no other word. -/
def Obligations.CommandWordsFollowTheTable : Prop :=
  ∀ w : BitVec 16, decodeTableWord 16 w.toNat =
    if w &&& 0xfffc#16 = 0x4330#16 then some (.setContinuousMode (w.extractLsb' 0 2))
    else if w &&& 0xfffc#16 = 0x4230#16 then some (.setBurstMode (w.extractLsb' 0 2))
    else if w = 0x5230#16 then some .setRunStateStop
    else if w = 0x5231#16 then some .setRunStateRun
    else if w = 0x5232#16 then some .setRunStateSingle
    else if w = 0x5450#16 then some .setTriggerModePositive
    else if w = 0x544e#16 then some .setTriggerModeNegative
    else if w = 0x5446#16 then some .setTriggerModeFree
    else if w &&& 0xfffe#16 = 0x4730#16 then some (.setAuxOutput (w.extractLsb' 0 1))
    else if w &&& 0xfffc#16 = 0x4130#16 then some (.setChannel (w.extractLsb' 0 2))
    else none

/-- A few words written out from the encodings of R61 to R63 and R68. -/
def Obligations.WrittenOutWordsDecode : Prop :=
  decodeTableWord 16 0b0100001100110010 = some (.setContinuousMode 2#2) ∧
  decodeTableWord 16 0b0101001000110010 = some .setRunStateSingle ∧
  decodeTableWord 16 0b0101010001001110 = some .setTriggerModeNegative ∧
  decodeTableWord 16 0b0100000100110011 = some (.setChannel 3#2) ∧
  decodeTableWord 8 0b00010101 = some (.sampleHi 21#5) ∧
  decodeTableWord 8 0b10101011 = some (.contLast 11#5) ∧
  decodeTableWord 8 0b11000000 = some .discard

/-- R147: 'decoding byte1/byte2 pairs (masking off flag bits) reconstructs the original 10-bit sample exactly'; Byte 1's flag is
000 and Byte 2's flag tells (`cont`, `last`). -/
def Obligations.EncodedSampleIsRecovered : Prop :=
  ∀ (v : Sample) (cont last : Bool),
    decodeSample (encodeSample v cont last).1 (encodeSample v cont last).2 = v ∧
    (encodeSample v cont last).1 >>> 5 = 0#8 ∧
    (encodeSample v cont last).2 >>> 5 =
      match cont, last with
      | false, false => 1#8
      | false, true => 2#8
      | true, false => 3#8
      | true, true => 5#8

/-! ### The instructions -/

/-- R160, and that any other argument does nothing at all. The pointers of the frame store are between operations, where their
values are the model's choice (log 12): of them the statement says only that they stay within the new burst length. -/
def Obligations.SetContinuousModeWritesAndDiscards : Prop :=
  (∀ (s : State) (d : BitVec 2) (hz : Nat), TransportFree s → (d, hz) ∈ [(0#2, 24), (1#2, 48), (2#2, 96), (3#2, 480)] →
    ∃ w r, w ≤ 1 ∧ r ≤ 1 ∧ exec (.setContinuousMode d) s = .next { s with
      mode := .continuous, burstLength := 1, frameCount := 0, rateIdx := d, adcRate := 96000, tickRate := hz,
      wrPtr := w, rdPtr := r, tx := s.tx ++ [0xc0#8] }) ∧
  ∀ (arg : Byte) (rest : List Byte), ¬(0x30 ≤ arg.toNat ∧ arg.toNat ≤ 0x33) →
    decodeLine (0x43#8 :: arg :: rest) = .reject .unrecognizedArgument ∧ DispatchesNothing (0x43#8 :: arg :: rest)

/-- R161, and that any other argument does nothing at all. -/
def Obligations.SetBurstModeWritesAndDiscards : Prop :=
  (∀ (s : State) (d : BitVec 2) (hz : Nat), TransportFree s →
    (d, hz) ∈ [(0#2, 9600), (1#2, 48000), (2#2, 96000), (3#2, 192000)] →
    exec (.setBurstMode d) s = .next { s with
      mode := .burst, burstLength := s.params.nframe, frameCount := 0, rateIdx := d, adcRate := hz, tickRate := 8,
      tx := s.tx ++ [0xc0#8] }) ∧
  ∀ (arg : Byte) (rest : List Byte), ¬(0x30 ≤ arg.toNat ∧ arg.toNat ≤ 0x33) →
    decodeLine (0x42#8 :: arg :: rest) = .reject .unrecognizedArgument ∧ DispatchesNothing (0x42#8 :: arg :: rest)

/-- R162, R163: `R0` writes the run state alone, `R1` clears the frame count too; no byte is pushed. -/
def Obligations.SetRunStateStopAndRunWriteOnly : Prop :=
  ∀ s : State,
    exec .setRunStateStop s = .next { s with runState := .stop } ∧
    exec .setRunStateRun s = .next { s with runState := .run, frameCount := 0 }

/-- R164: what `R2` does at its dispatch (the frame it asks for is sent by later ticks), and that any other argument but `0`
and `1` does nothing at all. -/
def Obligations.SetRunStateSingleWritesAndDiscards : Prop :=
  (∀ s : State, TransportFree s → exec .setRunStateSingle s = .next { s with
    runState := .single, frameCount := 0, tx := s.tx ++ [0xc0#8] }) ∧
  ∀ (arg : Byte) (rest : List Byte), ¬(0x30 ≤ arg.toNat ∧ arg.toNat ≤ 0x32) →
    decodeLine (0x52#8 :: arg :: rest) = .reject .unrecognizedArgument ∧ DispatchesNothing (0x52#8 :: arg :: rest)

/-- R165, and that any other argument does nothing at all. -/
def Obligations.SetTriggerModeWritesPolarity : Prop :=
  (∀ s : State,
    exec .setTriggerModePositive s = .next { s with trigMode := .risingEdge } ∧
    exec .setTriggerModeNegative s = .next { s with trigMode := .fallingEdge } ∧
    exec .setTriggerModeFree s = .next { s with trigMode := .free }) ∧
  ∀ (arg : Byte) (rest : List Byte), arg ∉ [0x50#8, 0x4e#8, 0x46#8] →
    decodeLine (0x54#8 :: arg :: rest) = .reject .unrecognizedArgument ∧ DispatchesNothing (0x54#8 :: arg :: rest)

/-- R166, R89: the level is written and the pin follows; any other argument does nothing at all. -/
def Obligations.SetAuxOutputDrivesPin : Prop :=
  (∀ (s : State) (d : BitVec 1), exec (.setAuxOutput d) s = .next { s with auxOut := d } ∧
    auxPinPort { s with auxOut := d } = d) ∧
  ∀ (arg : Byte) (rest : List Byte), ¬(0x30 ≤ arg.toNat ∧ arg.toNat ≤ 0x31) →
    decodeLine (0x47#8 :: arg :: rest) = .reject .unrecognizedArgument ∧ DispatchesNothing (0x47#8 :: arg :: rest)

/-- R167: the input is selected, for every later read; any other argument does nothing at all. -/
def Obligations.SetChannelSelectsInput : Prop :=
  (∀ (s : State) (d : BitVec 2), exec (.setChannel d) s = .next { s with channel := d } ∧
    adcChannelPort { s with channel := d } = d) ∧
  ∀ (arg : Byte) (rest : List Byte), ¬(0x30 ≤ arg.toNat ∧ arg.toNat ≤ 0x33) →
    decodeLine (0x41#8 :: arg :: rest) = .reject .unrecognizedArgument ∧ DispatchesNothing (0x41#8 :: arg :: rest)

/-- R68: each wire byte kind pushes its flag and its payload, and nothing else changes. -/
def Obligations.WireKindsPushTheirByte : Prop :=
  ∀ (s : State) (p : BitVec 5), TransportFree s →
    exec (.sampleHi p) s = .next { s with tx := s.tx ++ [0b000#3 ++ p] } ∧
    exec (.burstMid p) s = .next { s with tx := s.tx ++ [0b001#3 ++ p] } ∧
    exec (.burstLast p) s = .next { s with tx := s.tx ++ [0b010#3 ++ p] } ∧
    exec (.contMid p) s = .next { s with tx := s.tx ++ [0b011#3 ++ p] } ∧
    exec (.contLast p) s = .next { s with tx := s.tx ++ [0b101#3 ++ p] } ∧
    exec .discard s = .next { s with tx := s.tx ++ [0xc0#8] }

/-- R142, R143: the bytes pushed for a sample are `(s >> 5) & 0x1f` and `(s & 0x1f) | mask`. -/
def Obligations.SamplePairIsTheArithmeticOfTheCodec : Prop :=
  ∀ (s : State) (v : Sample), TransportFree s →
    exec (.sampleHi (v.extractLsb' 5 5)) s =
      .next { s with tx := s.tx ++ [((v >>> 5) &&& 0x1f#10).setWidth 8] } ∧
    (((v >>> 5) &&& 0x1f#10).setWidth 8 : Byte).toNat ≤ 0x1f ∧
    ∀ (i : Instr) (mask : Byte),
      (i, mask) ∈ [(.burstMid (v.extractLsb' 0 5), 0x20#8), (.burstLast (v.extractLsb' 0 5), 0x40#8),
        (.contMid (v.extractLsb' 0 5), 0x60#8), (.contLast (v.extractLsb' 0 5), 0xa0#8)] →
      exec i s = .next { s with tx := s.tx ++ [(v &&& 0x1f#10).setWidth 8 ||| mask] } ∧
      ((v &&& 0x1f#10).setWidth 8 ||| mask : Byte).extractLsb' 0 5 = v.extractLsb' 0 5 ∧
      ((v &&& 0x1f#10).setWidth 8 ||| mask : Byte) >>> 5 = mask >>> 5

/-- R168: exactly `C<d>`, `B<d>` and `R2` push a discard byte and no command pushes more; accepted or held back, what is pushed
follows every earlier byte. -/
def Obligations.EveryInstructionPushesItsBytes : Prop :=
  ∀ (i : Instr) (s : State), ∃ t, exec i s = .next t ∧ t.tx ++ t.txHeld = s.tx ++ s.txHeld ++ pushedBytes i

/-- R170, R86 (the model's form of a blocked push: log 4): with a transport that is not ready every instruction does all it does
otherwise, and its byte waits. -/
def Obligations.BlockedPushLeavesRegistersWritten : Prop :=
  ∀ (i : Instr) (s t : State), TransportFree s → exec i s = .next t →
    exec i { s with txReady := false } =
      .next { t with txReady := false, tx := s.tx, txHeld := t.tx.drop s.tx.length }

/-! ### The step -/

/-- The turn at the head of the schedule is the one that is taken; with none the CORE moves (R51; the schedule is the model's
own, log 1). -/
def Obligations.ScheduleDecidesWhoMoves : Prop :=
  ∀ (s : State) (rest : List Turn),
    (s.schedule = [] → step s = coreStep s) ∧
    (s.schedule = .core :: rest → step s = coreStep { s with schedule := rest }) ∧
    (∀ b, s.schedule = .hostSends b :: rest → step s = .next { s with schedule := rest, rx := s.rx ++ [b] }) ∧
    (s.schedule = .tickArrives :: rest → step s = .next { s with schedule := rest, tickPending := true }) ∧
    (∀ r, s.schedule = .transport r :: rest → step s = .next { s with schedule := rest, txReady := r })

/-- R151, R155: in DRAIN a newline performs the decoded command of the accumulated line, completely, and then empties the line;
the newline itself is taken from RX and not stored. Where the transport holds the command's byte back the line is emptied when
the byte is accepted (the model's choice, log 4). -/
def Obligations.StepRunsTheDecodedCommand : Prop :=
  ∀ (s : State) (i : Instr) (rest : List Byte), s.schedule = [] → s.txHeld = [] → s.phase = .drain →
    s.rx = 0x0a#8 :: rest → decodeLine (lineContent s) = .run i →
    ∃ t, exec i { s with rx := rest } = .next t ∧
      step s = .next (if t.txHeld = [] then { t with lineLen := 0 } else t)

/-- The sequencer's wire bytes run the same way (that they are instructions is the model's choice, log 9): where the CORE's next action is the wire byte `i`, the step is the meaning of
`i` and then what its phase does next (R124, R187, R188). -/
def Obligations.StepRunsTheFetchedWireByte : Prop :=
  ∀ (s : State) (i : Instr), s.schedule = [] → s.txHeld = [] → transmits s.phase = true → fetched s = some i →
    i.stream = .tx ∧ ∃ t, exec i s = .next t ∧ step s = .next (if t.txHeld = [] then retired t else t)

/-- R73, R30 (the placement is the model's own, log 10): an instruction word of the table, placed, is the one the very next
step performs. -/
def Obligations.PlacedWordIsPerformedNext : Prop :=
  ∀ (s : State) (nbits w : Nat) (i : Instr), Memory.wf s.buf → Memory.wf s.line → decodeTableWord nbits w = some i →
    ∃ u t, exec i u = .next t ∧ step (s.withFetchWord nbits w) = .next (retire t) ∧
      u.tx = s.tx ∧ u.txHeld = [] ∧ u.mode = s.mode ∧ u.runState = s.runState ∧ u.trigMode = s.trigMode ∧
      u.channel = s.channel ∧ u.auxOut = s.auxOut ∧ u.rateIdx = s.rateIdx ∧ u.schedule = s.schedule

/-- R151, R152: a command line that arrives in an empty buffer is performed at its newline. -/
def Obligations.ReceivedCommandLineIsPerformed : Prop :=
  ∀ (s : State) (i : Instr) (rest : List Byte), i.stream = .rx → s.schedule = [] → TransportFree s → s.phase = .drain →
    s.lineLen = 0 → Memory.wf s.line → s.rx = commandLine i ++ rest →
    ∃ line t, exec i { s with rx := rest, line := line, lineLen := 2 } = .next t ∧
      runSteps 3 s = .next { t with lineLen := 0 }

/-- R152: any byte other than the newline is appended; the sixteenth empties the buffer (R153). -/
def Obligations.AnyOtherByteIsAppended : Prop :=
  ∀ (s : State) (b : Byte) (rest : List Byte), s.txHeld = [] → s.phase = .drain → s.rx = b :: rest → b ≠ 0x0a#8 →
    s.lineLen < 16 → Memory.wf s.line →
    ∃ line, coreStep s = .next { s with
        rx := rest, line := line, lineLen := if s.lineLen = 15 then 0 else s.lineLen + 1 } ∧
      Memory.read line s.lineLen = b ∧ ∀ a, a ≠ s.lineLen → Memory.read line a = Memory.read s.line a

/-- R155, R64, R206, R207: a line that is no command changes nothing but the emptied buffer. -/
def Obligations.IgnoredLineChangesNothing : Prop :=
  ∀ (s : State) (r : Reject) (rest : List Byte), s.txHeld = [] → s.phase = .drain → s.rx = 0x0a#8 :: rest →
    decodeLine (lineContent s) = .reject r → coreStep s = .next { s with rx := rest, lineLen := 0 }

/-- R153, R205: sixteen bytes without a newline are lost, nothing is dispatched, and accumulation restarts empty with the byte
that follows. -/
def Obligations.SixteenBytesOverflow : Prop :=
  ∀ (s : State) (bytes rest : List Byte), s.schedule = [] → s.txHeld = [] → s.phase = .drain → s.lineLen = 0 →
    bytes.length = 16 → 0x0a#8 ∉ bytes → s.rx = bytes ++ rest →
    ∃ line, runSteps 16 s = .next { s with rx := rest, line := line }

/-- R181, R182, R183, R30, R88: an empty RX stream ends the drain; the poll reads and clears the flag and selects the
transition. -/
def Obligations.PollTakesTheTick : Prop :=
  ∀ s : State, s.txHeld = [] →
    (s.phase = .drain → s.rx = [] → coreStep s = .next { s with phase := .poll, micro := .start }) ∧
    (s.phase = .poll → coreStep s = .next { s with
      tickPending := false
      micro := .start
      phase :=
        if s.tickPending = false then .drain
        else if s.mode = .burst then .bTrig
        else if s.frameCount = 0 then .cTrig
        else .cRead })

/-! ### The trigger_edge_detector -/

/-- R100: Free is satisfied at once, for every level and retry limit, with zero reads and the history unchanged. -/
def Obligations.FreeWaitReadsNothing : Prop :=
  ∀ (s : State) (phase after : Phase), (phase, after) ∈ waitPhases → s.phase = phase → s.txHeld = [] → s.trigMode = .free →
    coreStep s = .next { s with trigOutcome := .satisfied, phase := after, micro := .start }

/-- R101. -/
def Obligations.EdgeWaitBeginsAtTheLevel : Prop :=
  ∀ (s : State) (phase after : Phase), (phase, after) ∈ waitPhases → s.phase = phase → s.txHeld = [] → s.trigMode ≠ .free →
    s.micro = .start →
    coreStep s = .next { s with trigPrev := s.trigLevel, trigCurr := s.trigLevel, retryCnt := 0, micro := .body }

/-- R102, R103, R104: one iteration shifts the history, reads, counts and evaluates the predicate of its polarity on the new
pair; a hit ends the wait at once. -/
def Obligations.EdgeIterationReadsThenCompares : Prop :=
  ∀ (s : State) (phase after : Phase) (v : Sample) (draws : List Sample), (phase, after) ∈ waitPhases → s.phase = phase →
    s.txHeld = [] → s.micro = .body → s.retryCnt < s.params.retryLimit → s.adcDraws = v :: draws →
    let read : State := { s with
      adcDraws := draws, adcLog := s.adcLog ++ [{ channel := s.channel, rate := s.adcRate }],
      trigPrev := s.trigCurr, trigCurr := v, retryCnt := s.retryCnt + 1 }
    let hit : State := { read with trigOutcome := .satisfied, phase := after, micro := .start }
    (s.trigMode = .risingEdge →
      coreStep s = .next (if s.trigCurr > s.trigLevel ∧ v ≤ s.trigLevel then hit else read)) ∧
    (s.trigMode = .fallingEdge →
      coreStep s = .next (if s.trigCurr < s.trigLevel ∧ v ≥ s.trigLevel then hit else read))

/-- R105, R204: at the end of the budget the wait ends with TimedOut, and the machine goes on. -/
def Obligations.ExhaustedBudgetTimesOut : Prop :=
  ∀ (s : State) (phase after : Phase), (phase, after) ∈ waitPhases → s.phase = phase → s.txHeld = [] → s.trigMode ≠ .free →
    s.micro = .body → s.retryCnt = s.params.retryLimit →
    coreStep s = .next { s with trigOutcome := .timedOut, phase := after, micro := .start }

/-- R106: the whole wait, step by step, is the function of the samples offered: in Free mode no read, in an edge mode the first
hit within the budget, or the timeout. When the samples run out first the CORE is stuck (R208; that a finite list of samples
stands for the ADC is the model's choice, log 3, and so is the number of steps, log 7). -/
def Obligations.WholeWaitIsTheFirstHit : Prop :=
  ∀ (s : State) (phase after : Phase), (phase, after) ∈ waitPhases → s.phase = phase → s.micro = .start →
    s.schedule = [] → s.txHeld = [] →
    let p := sampleAt s.trigLevel s.adcDraws
    let hit := hitAt s.trigMode s.trigLevel s.adcDraws
    let limit := s.params.retryLimit
    (s.trigMode = .free → runSteps 1 s = .next { s with trigOutcome := .satisfied, phase := after, micro := .start }) ∧
    (s.trigMode ≠ .free →
      (∀ k, 1 ≤ k → k ≤ limit → k ≤ s.adcDraws.length → hit k → (∀ j, 1 ≤ j → j < k → ¬hit j) →
        runSteps (k + 1) s = .next { takeDraws k s with
          trigPrev := p (k - 1), trigCurr := p k, retryCnt := k, trigOutcome := .satisfied,
          phase := after, micro := .start }) ∧
      (limit ≤ s.adcDraws.length → (∀ j, 1 ≤ j → j ≤ limit → ¬hit j) →
        runSteps (limit + 2) s = .next { takeDraws limit s with
          trigPrev := p (limit - 1), trigCurr := p limit, retryCnt := limit, trigOutcome := .timedOut,
          phase := after, micro := .start }) ∧
      (s.adcDraws.length < limit → (∀ j, 1 ≤ j → j ≤ s.adcDraws.length → ¬hit j) →
        runSteps (s.adcDraws.length + 2) s = .fault .hardwareStall))

/-- R107: 'the least possible `reads` for `Satisfied` in an edge mode is 2', and with RETRY_LIMIT <= 1 every edge-mode wait
times out. -/
def Obligations.FirstSampleNeverFires : Prop :=
  ∀ m : TriggerMode, m ≠ .free →
    (∀ (level v : Sample), edgeFires m level level v = false) ∧
    (∀ (level : Sample) (limit : Nat) (draws : List Sample) (r : WaitResult),
      tedWait m level limit draws = some r → r.outcome = .satisfied → 2 ≤ r.reads) ∧
    (∃ (level : Sample) (limit : Nat) (draws : List Sample) (r : WaitResult),
      tedWait m level limit draws = some r ∧ r.outcome = .satisfied ∧ r.reads = 2) ∧
    ∀ (level : Sample) (limit : Nat) (draws : List Sample), limit ≤ 1 → limit ≤ draws.length →
      ∃ r, tedWait m level limit draws = some r ∧ r.outcome = .timedOut ∧ r.reads = limit

/-- R108. -/
def Obligations.ExtremeLevels : Prop :=
  ∀ prev curr : Sample,
    edgeFires .risingEdge 1023#10 prev curr = false ∧
    (edgeFires .fallingEdge 1023#10 prev curr = true ↔ prev < 1023#10 ∧ curr = 1023#10) ∧
    edgeFires .fallingEdge 0#10 prev curr = false ∧
    (edgeFires .risingEdge 0#10 prev curr = true ↔ prev > 0#10 ∧ curr = 0#10)

/-- R109: a monotonically increasing sequence never satisfies RisingEdge, a decreasing one never FallingEdge, so a constant
signal neither. -/
def Obligations.MonotoneSignalsTimeOut : Prop :=
  ∀ (level : Sample) (limit : Nat) (draws : List Sample) (r : WaitResult),
    (draws.Pairwise (· ≤ ·) → tedWait .risingEdge level limit draws = some r → r.outcome = .timedOut ∧ r.reads = limit) ∧
    (draws.Pairwise (· ≥ ·) → tedWait .fallingEdge level limit draws = some r → r.outcome = .timedOut ∧ r.reads = limit)

/-! ### The frame_buffer_manager -/

/-- R120, R121: the fill starts at entry 0; one entry is one conversion stored at the write pointer, which advances. -/
def Obligations.FillStoresAtTheWritePointer : Prop :=
  ∀ s : State, s.txHeld = [] → s.phase = .bFill →
    (s.micro = .start → coreStep s = .next { s with wrPtr := 0, micro := .body }) ∧
    ∀ (v : Sample) (draws : List Sample), s.micro = .body → s.wrPtr < s.burstLength → s.burstLength ≤ s.params.nframe →
      s.adcDraws = v :: draws → Memory.wf s.buf →
      ∃ buf, coreStep s = .next { s with
          adcDraws := draws, adcLog := s.adcLog ++ [{ channel := s.channel, rate := s.adcRate }],
          buf := buf, wrPtr := s.wrPtr + 1 } ∧
        Memory.read buf s.wrPtr = v ∧ ∀ a, a ≠ s.wrPtr → Memory.read buf a = Memory.read s.buf a

/-- R122: the whole fill, made whatever the outcome and the run state are; it goes on to the read-out exactly when the wait was
Satisfied and the run state is not Stop (R184). -/
def Obligations.WholeFillHoldsTheDraws : Prop :=
  ∀ s : State, s.schedule = [] → s.txHeld = [] → s.phase = .bFill → s.micro = .start →
    s.burstLength ≤ s.params.nframe → s.burstLength ≤ s.adcDraws.length → Memory.wf s.buf →
    ∃ buf, runSteps (s.burstLength + 2) s = .next { takeDraws s.burstLength s with
        buf := buf, wrPtr := s.burstLength, micro := .start,
        phase := if s.trigOutcome = .satisfied ∧ s.runState ≠ .stop then .bXmit else .drain } ∧
      ∀ a, Memory.read buf a =
        if a < s.burstLength then s.adcDraws.getD a 0#10 else Memory.read s.buf a

/-- R123: exactly one read, stored in entry 0; R30: transmitted unless the run state is Stop. -/
def Obligations.AdvanceOneKeepsOneLiveSample : Prop :=
  ∀ (s : State) (v : Sample) (draws : List Sample), s.txHeld = [] → s.phase = .cRead → s.adcDraws = v :: draws →
    Memory.wf s.buf →
    ∃ buf, coreStep s = .next { s with
        adcDraws := draws, adcLog := s.adcLog ++ [{ channel := s.channel, rate := s.adcRate }],
        buf := buf, wrPtr := 1,
        phase := if s.runState = .stop then .drain else .cXmit,
        micro := if s.runState = .stop then .start else .body } ∧
      Memory.read buf 0 = v ∧ ∀ a, a ≠ 0 → Memory.read buf a = Memory.read s.buf a

/-- R124, R185: the whole read-out pushes two bytes for each entry in index order, the last sample with mask 0x40 and every
other one with mask 0x20, and then `Single` goes to `Stop`. -/
def Obligations.WholeReadOutSendsTheFrame : Prop :=
  ∀ s : State, s.schedule = [] → TransportFree s → s.phase = .bXmit → s.micro = .start → 1 ≤ s.burstLength →
    s.burstLength ≤ s.params.nframe →
    ∃ bytes : List Byte, runSteps (2 * s.burstLength + 1) s = .next { s with
        tx := s.tx ++ bytes, rdPtr := s.burstLength, phase := .drain, micro := .start,
        runState := if s.runState = .single then .stop else s.runState } ∧
      bytes.length = 2 * s.burstLength ∧
      ∀ a, a < s.burstLength →
        bytes[2 * a]? = some (((Memory.read s.buf a >>> 5) &&& 0x1f#10).setWidth 8) ∧
        bytes[2 * a + 1]? = some ((Memory.read s.buf a &&& 0x1f#10).setWidth 8 |||
          if a = s.burstLength - 1 then 0x40#8 else 0x20#8)

/-! ### The acquisition_control_fsm -/

/-- R187: the non-terminal sample. -/
def Obligations.NonTerminalSampleCounts : Prop :=
  ∀ s : State, s.schedule = [] → TransportFree s → s.phase = .cXmit → s.micro = .body → s.frameCount < s.params.nframe →
    runSteps 2 s = .next { s with
      tx := s.tx ++ [((Memory.read s.buf 0 >>> 5) &&& 0x1f#10).setWidth 8,
        (Memory.read s.buf 0 &&& 0x1f#10).setWidth 8 ||| 0x60#8],
      frameCount := s.frameCount + 1, phase := .drain, micro := .start }

/-- R188: the terminal sample, with which `Single` goes to `Stop`. -/
def Obligations.TerminalSampleEndsTheFrame : Prop :=
  ∀ s : State, s.schedule = [] → TransportFree s → s.phase = .cXmit → s.micro = .body → s.params.nframe ≤ s.frameCount →
    runSteps 2 s = .next { s with
      tx := s.tx ++ [((Memory.read s.buf 0 >>> 5) &&& 0x1f#10).setWidth 8,
        (Memory.read s.buf 0 &&& 0x1f#10).setWidth 8 ||| 0xa0#8],
      frameCount := 0, runState := if s.runState = .single then .stop else s.runState,
      phase := .drain, micro := .start }

/-- R182, R184: the step by step machine and the Burst tick transition as one atomic step agree, a HardwareStall included (its
form is the model's choice, log 3). -/
def Obligations.BurstTransitionRefinesTickBurst : Prop :=
  ∀ s : State, s.schedule = [] → TransportFree s → s.phase = .bTrig → s.micro = .start → 1 ≤ s.burstLength →
    s.burstLength ≤ s.params.nframe →
    (∀ t, tickBurst s = some t → ∃ k, runSteps k s = .next t) ∧
    (tickBurst s = none → ∃ k, runSteps k s = .fault .hardwareStall)

/-- R182, R186: the same for the Continuous tick transition, from the phase the poll selects (log 3). -/
def Obligations.ContinuousTransitionRefinesTickContinuous : Prop :=
  ∀ s : State, s.schedule = [] → TransportFree s → s.micro = .start →
    s.phase = (if s.frameCount = 0 then .cTrig else .cRead) →
    (∀ t, tickContinuous s = some t → ∃ k, runSteps k s = .next t) ∧
    (tickContinuous s = none → ∃ k, runSteps k s = .fault .hardwareStall)

/-- R191: with run state Stop a tick transition pushes no byte and leaves the count, and the conversions made do not depend on
the run state. -/
def Obligations.StopAcquiresButSendsNothing : Prop :=
  ∀ (s : State) (r : RunState),
    (∀ t, s.runState = .stop → (tickBurst s = some t ∨ tickContinuous s = some t) →
      t.tx = s.tx ∧ t.frameCount = s.frameCount ∧ t.runState = .stop) ∧
    (tickBurst { s with runState := r }).map (·.adcLog) = (tickBurst s).map (·.adcLog) ∧
    (tickContinuous { s with runState := r }).map (·.adcLog) = (tickContinuous s).map (·.adcLog)

/-- R189: from count 0 with a run state other than Stop, NFRAME + 1 Continuous ticks send NFRAME non-terminal samples and then one
terminal sample, 2 * NFRAME + 2 bytes, and a `Single` run then stops. -/
def Obligations.ContinuousFrameHasOneMoreSample : Prop :=
  ∀ s t : State, s.frameCount = 0 → s.runState ≠ .stop → contTicks (s.params.nframe + 1) s = some t →
    t.frameCount = 0 ∧ (t.runState = if s.runState = .single then .stop else s.runState) ∧
    ∃ bytes : List Byte, t.tx = s.tx ++ bytes ∧ bytes.length = 2 * s.params.nframe + 2 ∧
      ∀ k, k ≤ s.params.nframe →
        bytes[2 * k]?.map wireFlag = some 0b000#3 ∧
        bytes[2 * k + 1]?.map wireFlag = some (if k = s.params.nframe then 0b101#3 else 0b011#3)

/-- R112, R10, R11, R13: an edge-mode wait, and so every transition that makes one, does not depend on the history or the counter
it finds. -/
def Obligations.HistoryIsLocalToOneWait : Prop :=
  ∀ (s : State) (prev curr : Sample) (n : Nat), s.trigMode ≠ .free →
    tickBurst { s with trigPrev := prev, trigCurr := curr, retryCnt := n } = tickBurst s ∧
    (s.frameCount = 0 →
      tickContinuous { s with trigPrev := prev, trigCurr := curr, retryCnt := n } = tickContinuous s)

/-- R42: 'no rule reads an entry that the same tick transition did not write': what a transition sends does not depend on the
contents of the frame store before it. -/
def Obligations.StaleEntriesAreNeverSent : Prop :=
  ∀ (s : State) (buf : Memory 10), Memory.wf s.buf → Memory.wf buf →
    (tickBurst { s with buf := buf }).map (·.tx) = (tickBurst s).map (·.tx) ∧
    (tickContinuous { s with buf := buf }).map (·.tx) = (tickContinuous s).map (·.tx)

/-! ### Whole-machine rules -/

/-- R35, R231: the state after reset of a CORE with any parameters, where the spec gives a value. -/
def Obligations.ResetValues : Prop :=
  ∀ p : Params,
    let s := State.resetOf p
    s.trigLevel = p.trigLevel ∧ s.wrPtr = 0 ∧ s.rdPtr = 0 ∧ s.burstLength = p.nframe ∧ s.frameCount = 0 ∧
    s.mode = .burst ∧ s.runState = .run ∧ s.trigMode = .free ∧ s.channel = 0#2 ∧ s.auxOut = 0#1 ∧ s.rateIdx = 1#2 ∧
    s.adcRate = 48000 ∧ s.tickRate = 8 ∧ s.tickPending = false ∧ s.phase = .drain ∧ s.lineLen = 0 ∧ s.rx = [] ∧
    s.tx = if p.bootEmitsDiscard then [0xc0#8] else []

/-- R230, R233: a power-on event at any time leaves the state after reset; the environment's coming turns and answers stand
(log 13). -/
def Obligations.PowerOnRestoresReset : Prop :=
  ∀ (s : State) (rest : List Turn), s.schedule = .powerOn :: rest →
    step s = .next { State.resetOf s.params with adcDraws := s.adcDraws, schedule := rest }

/-- R34 at reset, for any parameters; the registers R35 leaves unspecified hold the model's values (log 5). -/
def Obligations.ResetIsGood : Prop := GoodState State.reset ∧ ∀ p : Params, GoodState (State.resetOf p)

/-- R34, R41, R70, R71: every step keeps the invariants of the registers, the stores, the phases and the TX stream; item (f) of
R34 holds because of the values the model gives the idle pointers (its choice, log 12). -/
def Obligations.StepKeepsTheInvariant : Prop := ∀ s t : State, GoodState s → step s = .next t → GoodState t

/-- R201, R208, R41: in a good state a step stops exactly when the CORE is stuck, in a conversion that is never answered or in a
push that is never accepted (the form of both is the model's choice, logs 3 and 4); no other fault and no refusal exists. -/
def Obligations.StepStopsExactlyWhenStuck : Prop :=
  ∀ s : State, GoodState s →
    (∀ r, step s ≠ .refused r) ∧
    ∀ f, step s = .fault f ↔ coreMoves s ∧
      (f = .transportHang ∧ s.txHeld ≠ [] ∧ s.txReady = false ∨
        f = .hardwareStall ∧ s.txHeld = [] ∧ s.adcDraws = [] ∧ readsAdc s)

/-- R190: 'mode changes only by command', or by a power-on. -/
def Obligations.ModeChangesOnlyByCommand : Prop :=
  ∀ s t : State, step s = .next t → t.mode ≠ s.mode →
    (∃ rest, s.schedule = .powerOn :: rest) ∨
    (s.phase = .drain ∧ s.txHeld = [] ∧ ∃ d rest, s.rx = 0x0a#8 :: rest ∧
      (decodeLine (lineContent s) = .run (.setContinuousMode d) ∧ t.mode = .continuous ∨
        decodeLine (lineContent s) = .run (.setBurstMode d) ∧ t.mode = .burst))

/-- R190, R185, R188: the run state changes by its command, by a power-on, or from Single to Stop with the last byte of a frame. -/
def Obligations.RunStateChangesOnlyByCommandOrFrameEnd : Prop :=
  ∀ s t : State, GoodState s → step s = .next t → t.runState ≠ s.runState →
    (∃ rest, s.schedule = .powerOn :: rest) ∨
    (s.phase = .drain ∧ ∃ i rest, s.rx = 0x0a#8 :: rest ∧ decodeLine (lineContent s) = .run i ∧
      (i = .setRunStateStop ∧ t.runState = .stop ∨ i = .setRunStateRun ∧ t.runState = .run ∨
        i = .setRunStateSingle ∧ t.runState = .single)) ∨
    (s.runState = .single ∧ t.runState = .stop ∧ s.micro = .low ∧ t.phase = .drain ∧
      t.tx.length = s.tx.length + 1 ∧ t.txHeld = [] ∧
      (s.phase = .bXmit ∧ s.rdPtr + 1 = s.burstLength ∨ s.phase = .cXmit ∧ s.params.nframe ≤ s.frameCount))

/-- R36: the registers that one command alone writes. -/
def Obligations.SelectionsChangeOnlyByTheirCommand : Prop :=
  ∀ s t : State, step s = .next t → (¬∃ rest, s.schedule = .powerOn :: rest) →
    let dispatched (i : Instr) : Prop :=
      s.phase = .drain ∧ (∃ rest, s.rx = 0x0a#8 :: rest) ∧ decodeLine (lineContent s) = .run i
    (t.channel ≠ s.channel → dispatched (.setChannel t.channel)) ∧
    (t.auxOut ≠ s.auxOut → dispatched (.setAuxOutput t.auxOut)) ∧
    (t.trigMode ≠ s.trigMode → ∃ i, dispatched i ∧
      (i, t.trigMode) ∈ [(.setTriggerModePositive, TriggerMode.risingEdge),
        (.setTriggerModeNegative, TriggerMode.fallingEdge), (.setTriggerModeFree, TriggerMode.free)]) ∧
    t.trigLevel = s.trigLevel ∧ t.params = s.params

/-- R45, R44, R46: but for a power-on, TX only grows, by at most one byte a step; RX is consumed from the front and grows at the
back; a conversion consumes one draw and is requested on the current channel at the current rate (R81). -/
def Obligations.StreamsMoveInOrder : Prop :=
  ∀ s t : State, step s = .next t → (¬∃ rest, s.schedule = .powerOn :: rest) →
    (∃ pushed : List Byte, t.tx = s.tx ++ pushed ∧ pushed.length ≤ 1) ∧
    (t.rx = s.rx ∨ (∃ b, s.rx = b :: t.rx) ∨ ∃ b, t.rx = s.rx ++ [b]) ∧
    (t.adcDraws = s.adcDraws ∧ t.adcLog = s.adcLog ∨
      (∃ v, s.adcDraws = v :: t.adcDraws) ∧
        t.adcLog = s.adcLog ++ [{ channel := adcChannelPort s, rate := adcRatePort s }])

/-- R51 (c), R30: outside DRAIN, and while bytes are left in it, a byte that arrives changes nothing but the RX stream; outside
POLL a tick that arrives changes nothing but the flag. -/
def Obligations.ArrivalsDoNotDisturbTheCore : Prop :=
  ∀ (s : State) (b : Byte),
    (s.phase ≠ .drain ∨ s.rx ≠ [] → coreStep (hostSends b s) = mapNext (hostSends b) (coreStep s)) ∧
    (s.phase ≠ .poll → coreStep (tickArrives s) = mapNext tickArrives (coreStep s))

/-- R87, R211: ticks before a poll coalesce into one. -/
def Obligations.TicksCoalesce : Prop :=
  ∀ (s : State) (n : Nat) (rest : List Turn), s.schedule = List.replicate (n + 1) .tickArrives ++ rest →
    runSteps (n + 1) s = .next { s with tickPending := true, schedule := rest }

/-- R86, R244: a byte held back joins TX when the transport is ready, and the CORE is stuck while it is not (the model's choice,
log 4). -/
def Obligations.HeldByteWaitsForTheTransport : Prop :=
  ∀ (s : State) (b : Byte), s.txHeld = [b] →
    (s.txReady = false → coreStep s = .fault .transportHang) ∧
    (s.txReady = true → coreStep s = .next (retired { s with tx := s.tx ++ [b], txHeld := [] }))

/-- R5, R238 (c), D12: in a good state every pointer and counter of the frame store fits PTR_W bits, the smallest width that
holds NFRAME. -/
def Obligations.PointersFitTheirWidth : Prop :=
  ∀ s : State, GoodState s →
    (∀ n, n ∈ [s.wrPtr, s.rdPtr, s.burstLength, s.frameCount] → n < 2 ^ ptrWidth s.params) ∧
    ∀ w, s.params.nframe < 2 ^ w → ptrWidth s.params ≤ w

end
end

