-- ==== Sys2Proof/Laws/Decode.lean ====
section
/-! SUPPORT. One lemma for each part of the decoder. -/

namespace Sys2Proof

/-- A digit in its domain (R62). -/
theorem digit?_some {dmax d : Nat} {arg : Byte} :
    digit? dmax arg = some d ↔ d ≤ dmax ∧ arg.toNat = 0x30 + d := by
  unfold digit? digitZero
  simp only [BitVec.toNat_ofNat]
  split <;> simp <;> omega

/-- An argument outside the digits' domain (R62, R64 (c)). -/
theorem digit?_none {dmax : Nat} {arg : Byte} :
    digit? dmax arg = none ↔ ¬(0x30 ≤ arg.toNat ∧ arg.toNat ≤ 0x30 + dmax) := by
  unfold digit? digitZero
  simp only [BitVec.toNat_ofNat]
  split <;> simp_all

end Sys2Proof
end

