-- ==== Sys2Proof/Laws/Memory.lean ====
section
/-! SUPPORT. The laws of a store (spec/20_memory.md R41): a read after a write, and that a write keeps the canonical form. -/

namespace Sys2Proof.Machine

theorem Memory.read_write_same {w : Nat} (m : Memory w) (h : Memory.wf m) (a : Nat) (v : BitVec w) :
    Memory.read (Memory.write m a v) a = v := by
  induction m with
  | nil => by_cases hv : v = Memory.unlisted w <;> simp [Memory.write, Memory.read, hv]
  | cons e m ih =>
    obtain ⟨k, u⟩ := e
    obtain ⟨hs, hn⟩ := h
    rw [List.pairwise_cons] at hs
    have unlisted_below : ∀ b, b ≤ k → Memory.read m b = Memory.unlisted w := by
      intro b hb
      have : ∀ p ∈ m, b ≠ p.1 := fun p hp => by have := hs.1 p hp; simp at this; omega
      clear ih hs hn
      induction m with
      | nil => rfl
      | cons f m ih2 =>
        obtain ⟨k', u'⟩ := f
        have hk := this (k', u') (by simp)
        simp only [Memory.read]
        rw [if_neg hk]
        exact ih2 (fun p hp => this p (by simp [hp]))
    by_cases h1 : a < k
    · by_cases hv : v = Memory.unlisted w
      · simp [Memory.write, h1, hv, Memory.read, Nat.ne_of_lt h1, unlisted_below a (Nat.le_of_lt h1)]
      · simp [Memory.write, h1, hv, Memory.read]
    · by_cases h2 : a = k
      · subst h2
        by_cases hv : v = Memory.unlisted w
        · simp [Memory.write, hv, unlisted_below a (Nat.le_refl a)]
        · simp [Memory.write, hv, Memory.read]
      · simp only [Memory.write, if_neg h1, if_neg h2, Memory.read]
        exact ih ⟨hs.2, fun p hp => hn p (by simp [hp])⟩

theorem Memory.read_write_other {w : Nat} (m : Memory w) (a b : Nat) (v : BitVec w) (h : b ≠ a) :
    Memory.read (Memory.write m a v) b = Memory.read m b := by
  induction m with
  | nil => by_cases hv : v = Memory.unlisted w <;> simp [Memory.write, Memory.read, hv, h]
  | cons e m ih =>
    obtain ⟨k, u⟩ := e
    by_cases h1 : a < k
    · by_cases hv : v = Memory.unlisted w <;> simp [Memory.write, h1, hv, Memory.read, h]
    · by_cases h2 : a = k
      · subst h2
        by_cases hv : v = Memory.unlisted w <;> simp [Memory.write, hv, Memory.read, h]
      · simp only [Memory.write, if_neg h1, if_neg h2, Memory.read, ih]

/-- The entries of a written store: the written one, or one that was there. -/
theorem Memory.mem_write {w : Nat} {m : Memory w} {a : Nat} {v : BitVec w} {e : Nat × BitVec w}
    (h : e ∈ Memory.write m a v) : (e = (a, v) ∧ v ≠ Memory.unlisted w) ∨ e ∈ m := by
  induction m with
  | nil =>
    by_cases hv : v = Memory.unlisted w <;> simp [Memory.write, hv] at h
    exact .inl ⟨h, hv⟩
  | cons f m ih =>
    obtain ⟨k, u⟩ := f
    by_cases h1 : a < k
    · by_cases hv : v = Memory.unlisted w <;> simp [Memory.write, h1, hv] at h
      · exact .inr (by simpa using h)
      · rcases h with h | h
        · exact .inl ⟨h, hv⟩
        · exact .inr (by simpa using h)
    · by_cases h2 : a = k
      · by_cases hv : v = Memory.unlisted w <;> simp [Memory.write, h2, hv] at h
        · exact .inr (by simp [h])
        · rcases h with h | h
          · exact .inl ⟨by rw [h2]; exact h, hv⟩
          · exact .inr (by simp [h])
      · simp [Memory.write, h1, h2] at h
        rcases h with h | h
        · exact .inr (by simp [h])
        · rcases ih h with h | h
          · exact .inl h
          · exact .inr (by simp [h])

theorem Memory.write_wf {w : Nat} (m : Memory w) (h : Memory.wf m) (a : Nat) (v : BitVec w) :
    Memory.wf (Memory.write m a v) := by
  refine ⟨?_, fun p hp => ?_⟩
  · obtain ⟨hs, -⟩ := h
    induction m with
    | nil => by_cases hv : v = Memory.unlisted w <;> simp [Memory.write, hv]
    | cons e m ih =>
      obtain ⟨k, u⟩ := e
      rw [List.pairwise_cons] at hs
      by_cases h1 : a < k
      · by_cases hv : v = Memory.unlisted w
        · simpa [Memory.write, h1, hv] using hs
        · simp only [Memory.write, if_pos h1, if_neg hv]
          refine List.pairwise_cons.2 ⟨fun p hp => ?_, List.pairwise_cons.2 hs⟩
          rcases List.mem_cons.1 hp with rfl | hp
          · exact h1
          · exact Nat.lt_trans h1 (hs.1 p hp)
      · by_cases h2 : a = k
        · subst h2
          by_cases hv : v = Memory.unlisted w
          · simpa [Memory.write, hv] using hs.2
          · simp only [Memory.write, if_neg (Nat.lt_irrefl a), if_pos, if_neg hv]
            exact List.pairwise_cons.2 hs
        · simp only [Memory.write, if_neg h1, if_neg h2]
          refine List.pairwise_cons.2 ⟨fun p hp => ?_, ih hs.2⟩
          rcases Memory.mem_write hp with ⟨rfl, -⟩ | hp
          · exact Nat.lt_of_le_of_ne (Nat.le_of_not_lt h1) (Ne.symm h2)
          · exact hs.1 p hp
  · rcases Memory.mem_write hp with ⟨rfl, hv⟩ | hp
    · exact hv
    · exact h.2 p hp

theorem Memory.writeFrom_wf {w : Nat} (vs : List (BitVec w)) (m : Memory w) (h : Memory.wf m) (a : Nat) :
    Memory.wf (Memory.writeFrom m a vs) := by
  induction vs generalizing m a with
  | nil => exact h
  | cons v vs ih => exact ih _ (Memory.write_wf m h a v) _

/-- What a run of writes leaves at each index. -/
theorem Memory.read_writeFrom {w : Nat} (vs : List (BitVec w)) (m : Memory w) (h : Memory.wf m) (a b : Nat) :
    Memory.read (Memory.writeFrom m a vs) b =
      if a ≤ b then (vs[b - a]?).getD (Memory.read m b) else Memory.read m b := by
  induction vs generalizing m a with
  | nil => simp [Memory.writeFrom]
  | cons v vs ih =>
    rw [Memory.writeFrom, ih _ (Memory.write_wf m h a v)]
    by_cases hb : b = a
    · subst hb
      simp [Memory.read_write_same m h]
    · rw [Memory.read_write_other m a b v hb]
      by_cases hab : a ≤ b
      · have h1 : a + 1 ≤ b := by omega
        have h2 : b - a = (b - (a + 1)) + 1 := by omega
        simp [hab, h1, h2]
      · have h1 : ¬a + 1 ≤ b := by omega
        simp [hab, h1]

theorem reset_memory_wf (p : Params) :
    Memory.wf (State.resetOf p).buf ∧ Memory.wf (State.resetOf p).line := by simp [State.resetOf, Memory.wf]

end Sys2Proof.Machine
end

