-- ==== Sys2Proof/Laws/State.lean ====
section
/-! SUPPORT. Every named update of State, field by field: true by rfl, so that no later proof unfolds a record update. -/

namespace Sys2Proof.Machine

@[simp] theorem txPush_params (b : Byte) (s : State) : (txPush b s).params = s.params := rfl
@[simp] theorem txPush_trigPrev (b : Byte) (s : State) : (txPush b s).trigPrev = s.trigPrev := rfl
@[simp] theorem txPush_trigCurr (b : Byte) (s : State) : (txPush b s).trigCurr = s.trigCurr := rfl
@[simp] theorem txPush_trigLevel (b : Byte) (s : State) : (txPush b s).trigLevel = s.trigLevel := rfl
@[simp] theorem txPush_retryCnt (b : Byte) (s : State) : (txPush b s).retryCnt = s.retryCnt := rfl
@[simp] theorem txPush_trigOutcome (b : Byte) (s : State) : (txPush b s).trigOutcome = s.trigOutcome := rfl
@[simp] theorem txPush_buf (b : Byte) (s : State) : (txPush b s).buf = s.buf := rfl
@[simp] theorem txPush_wrPtr (b : Byte) (s : State) : (txPush b s).wrPtr = s.wrPtr := rfl
@[simp] theorem txPush_rdPtr (b : Byte) (s : State) : (txPush b s).rdPtr = s.rdPtr := rfl
@[simp] theorem txPush_burstLength (b : Byte) (s : State) : (txPush b s).burstLength = s.burstLength := rfl
@[simp] theorem txPush_frameCount (b : Byte) (s : State) : (txPush b s).frameCount = s.frameCount := rfl
@[simp] theorem txPush_mode (b : Byte) (s : State) : (txPush b s).mode = s.mode := rfl
@[simp] theorem txPush_runState (b : Byte) (s : State) : (txPush b s).runState = s.runState := rfl
@[simp] theorem txPush_trigMode (b : Byte) (s : State) : (txPush b s).trigMode = s.trigMode := rfl
@[simp] theorem txPush_channel (b : Byte) (s : State) : (txPush b s).channel = s.channel := rfl
@[simp] theorem txPush_auxOut (b : Byte) (s : State) : (txPush b s).auxOut = s.auxOut := rfl
@[simp] theorem txPush_rateIdx (b : Byte) (s : State) : (txPush b s).rateIdx = s.rateIdx := rfl
@[simp] theorem txPush_adcRate (b : Byte) (s : State) : (txPush b s).adcRate = s.adcRate := rfl
@[simp] theorem txPush_tickRate (b : Byte) (s : State) : (txPush b s).tickRate = s.tickRate := rfl
@[simp] theorem txPush_tickPending (b : Byte) (s : State) : (txPush b s).tickPending = s.tickPending := rfl
@[simp] theorem txPush_phase (b : Byte) (s : State) : (txPush b s).phase = s.phase := rfl
@[simp] theorem txPush_micro (b : Byte) (s : State) : (txPush b s).micro = s.micro := rfl
@[simp] theorem txPush_line (b : Byte) (s : State) : (txPush b s).line = s.line := rfl
@[simp] theorem txPush_lineLen (b : Byte) (s : State) : (txPush b s).lineLen = s.lineLen := rfl
@[simp] theorem txPush_txReady (b : Byte) (s : State) : (txPush b s).txReady = s.txReady := rfl
@[simp] theorem txPush_rx (b : Byte) (s : State) : (txPush b s).rx = s.rx := rfl
@[simp] theorem txPush_adcDraws (b : Byte) (s : State) : (txPush b s).adcDraws = s.adcDraws := rfl
@[simp] theorem txPush_adcLog (b : Byte) (s : State) : (txPush b s).adcLog = s.adcLog := rfl
@[simp] theorem txPush_schedule (b : Byte) (s : State) : (txPush b s).schedule = s.schedule := rfl

@[simp] theorem idlePointers_params (s : State) : (idlePointers s).params = s.params := rfl
@[simp] theorem idlePointers_trigPrev (s : State) : (idlePointers s).trigPrev = s.trigPrev := rfl
@[simp] theorem idlePointers_trigCurr (s : State) : (idlePointers s).trigCurr = s.trigCurr := rfl
@[simp] theorem idlePointers_trigLevel (s : State) : (idlePointers s).trigLevel = s.trigLevel := rfl
@[simp] theorem idlePointers_retryCnt (s : State) : (idlePointers s).retryCnt = s.retryCnt := rfl
@[simp] theorem idlePointers_trigOutcome (s : State) : (idlePointers s).trigOutcome = s.trigOutcome := rfl
@[simp] theorem idlePointers_buf (s : State) : (idlePointers s).buf = s.buf := rfl
@[simp] theorem idlePointers_wrPtr (s : State) : (idlePointers s).wrPtr = 0 := rfl
@[simp] theorem idlePointers_rdPtr (s : State) : (idlePointers s).rdPtr = 0 := rfl
@[simp] theorem idlePointers_burstLength (s : State) : (idlePointers s).burstLength = s.burstLength := rfl
@[simp] theorem idlePointers_frameCount (s : State) : (idlePointers s).frameCount = s.frameCount := rfl
@[simp] theorem idlePointers_mode (s : State) : (idlePointers s).mode = s.mode := rfl
@[simp] theorem idlePointers_runState (s : State) : (idlePointers s).runState = s.runState := rfl
@[simp] theorem idlePointers_trigMode (s : State) : (idlePointers s).trigMode = s.trigMode := rfl
@[simp] theorem idlePointers_channel (s : State) : (idlePointers s).channel = s.channel := rfl
@[simp] theorem idlePointers_auxOut (s : State) : (idlePointers s).auxOut = s.auxOut := rfl
@[simp] theorem idlePointers_rateIdx (s : State) : (idlePointers s).rateIdx = s.rateIdx := rfl
@[simp] theorem idlePointers_adcRate (s : State) : (idlePointers s).adcRate = s.adcRate := rfl
@[simp] theorem idlePointers_tickRate (s : State) : (idlePointers s).tickRate = s.tickRate := rfl
@[simp] theorem idlePointers_tickPending (s : State) : (idlePointers s).tickPending = s.tickPending := rfl
@[simp] theorem idlePointers_phase (s : State) : (idlePointers s).phase = s.phase := rfl
@[simp] theorem idlePointers_micro (s : State) : (idlePointers s).micro = s.micro := rfl
@[simp] theorem idlePointers_line (s : State) : (idlePointers s).line = s.line := rfl
@[simp] theorem idlePointers_lineLen (s : State) : (idlePointers s).lineLen = s.lineLen := rfl
@[simp] theorem idlePointers_txHeld (s : State) : (idlePointers s).txHeld = s.txHeld := rfl
@[simp] theorem idlePointers_txReady (s : State) : (idlePointers s).txReady = s.txReady := rfl
@[simp] theorem idlePointers_rx (s : State) : (idlePointers s).rx = s.rx := rfl
@[simp] theorem idlePointers_tx (s : State) : (idlePointers s).tx = s.tx := rfl
@[simp] theorem idlePointers_adcDraws (s : State) : (idlePointers s).adcDraws = s.adcDraws := rfl
@[simp] theorem idlePointers_adcLog (s : State) : (idlePointers s).adcLog = s.adcLog := rfl
@[simp] theorem idlePointers_schedule (s : State) : (idlePointers s).schedule = s.schedule := rfl

@[simp] theorem enter_params (p : Phase) (s : State) : (enter p s).params = s.params := rfl
@[simp] theorem enter_trigPrev (p : Phase) (s : State) : (enter p s).trigPrev = s.trigPrev := rfl
@[simp] theorem enter_trigCurr (p : Phase) (s : State) : (enter p s).trigCurr = s.trigCurr := rfl
@[simp] theorem enter_trigLevel (p : Phase) (s : State) : (enter p s).trigLevel = s.trigLevel := rfl
@[simp] theorem enter_retryCnt (p : Phase) (s : State) : (enter p s).retryCnt = s.retryCnt := rfl
@[simp] theorem enter_trigOutcome (p : Phase) (s : State) : (enter p s).trigOutcome = s.trigOutcome := rfl
@[simp] theorem enter_buf (p : Phase) (s : State) : (enter p s).buf = s.buf := rfl
@[simp] theorem enter_wrPtr (p : Phase) (s : State) : (enter p s).wrPtr = s.wrPtr := rfl
@[simp] theorem enter_rdPtr (p : Phase) (s : State) : (enter p s).rdPtr = s.rdPtr := rfl
@[simp] theorem enter_burstLength (p : Phase) (s : State) : (enter p s).burstLength = s.burstLength := rfl
@[simp] theorem enter_frameCount (p : Phase) (s : State) : (enter p s).frameCount = s.frameCount := rfl
@[simp] theorem enter_mode (p : Phase) (s : State) : (enter p s).mode = s.mode := rfl
@[simp] theorem enter_runState (p : Phase) (s : State) : (enter p s).runState = s.runState := rfl
@[simp] theorem enter_trigMode (p : Phase) (s : State) : (enter p s).trigMode = s.trigMode := rfl
@[simp] theorem enter_channel (p : Phase) (s : State) : (enter p s).channel = s.channel := rfl
@[simp] theorem enter_auxOut (p : Phase) (s : State) : (enter p s).auxOut = s.auxOut := rfl
@[simp] theorem enter_rateIdx (p : Phase) (s : State) : (enter p s).rateIdx = s.rateIdx := rfl
@[simp] theorem enter_adcRate (p : Phase) (s : State) : (enter p s).adcRate = s.adcRate := rfl
@[simp] theorem enter_tickRate (p : Phase) (s : State) : (enter p s).tickRate = s.tickRate := rfl
@[simp] theorem enter_tickPending (p : Phase) (s : State) : (enter p s).tickPending = s.tickPending := rfl
@[simp] theorem enter_phase (p : Phase) (s : State) : (enter p s).phase = p := rfl
@[simp] theorem enter_line (p : Phase) (s : State) : (enter p s).line = s.line := rfl
@[simp] theorem enter_lineLen (p : Phase) (s : State) : (enter p s).lineLen = s.lineLen := rfl
@[simp] theorem enter_txHeld (p : Phase) (s : State) : (enter p s).txHeld = s.txHeld := rfl
@[simp] theorem enter_txReady (p : Phase) (s : State) : (enter p s).txReady = s.txReady := rfl
@[simp] theorem enter_rx (p : Phase) (s : State) : (enter p s).rx = s.rx := rfl
@[simp] theorem enter_tx (p : Phase) (s : State) : (enter p s).tx = s.tx := rfl
@[simp] theorem enter_adcDraws (p : Phase) (s : State) : (enter p s).adcDraws = s.adcDraws := rfl
@[simp] theorem enter_adcLog (p : Phase) (s : State) : (enter p s).adcLog = s.adcLog := rfl
@[simp] theorem enter_schedule (p : Phase) (s : State) : (enter p s).schedule = s.schedule := rfl

@[simp] theorem singleToStop_params (s : State) : (singleToStop s).params = s.params := rfl
@[simp] theorem singleToStop_trigPrev (s : State) : (singleToStop s).trigPrev = s.trigPrev := rfl
@[simp] theorem singleToStop_trigCurr (s : State) : (singleToStop s).trigCurr = s.trigCurr := rfl
@[simp] theorem singleToStop_trigLevel (s : State) : (singleToStop s).trigLevel = s.trigLevel := rfl
@[simp] theorem singleToStop_retryCnt (s : State) : (singleToStop s).retryCnt = s.retryCnt := rfl
@[simp] theorem singleToStop_trigOutcome (s : State) : (singleToStop s).trigOutcome = s.trigOutcome := rfl
@[simp] theorem singleToStop_buf (s : State) : (singleToStop s).buf = s.buf := rfl
@[simp] theorem singleToStop_wrPtr (s : State) : (singleToStop s).wrPtr = s.wrPtr := rfl
@[simp] theorem singleToStop_rdPtr (s : State) : (singleToStop s).rdPtr = s.rdPtr := rfl
@[simp] theorem singleToStop_burstLength (s : State) : (singleToStop s).burstLength = s.burstLength := rfl
@[simp] theorem singleToStop_frameCount (s : State) : (singleToStop s).frameCount = s.frameCount := rfl
@[simp] theorem singleToStop_mode (s : State) : (singleToStop s).mode = s.mode := rfl
@[simp] theorem singleToStop_runState (s : State) : (singleToStop s).runState = if s.runState = .single then .stop else s.runState := rfl
@[simp] theorem singleToStop_trigMode (s : State) : (singleToStop s).trigMode = s.trigMode := rfl
@[simp] theorem singleToStop_channel (s : State) : (singleToStop s).channel = s.channel := rfl
@[simp] theorem singleToStop_auxOut (s : State) : (singleToStop s).auxOut = s.auxOut := rfl
@[simp] theorem singleToStop_rateIdx (s : State) : (singleToStop s).rateIdx = s.rateIdx := rfl
@[simp] theorem singleToStop_adcRate (s : State) : (singleToStop s).adcRate = s.adcRate := rfl
@[simp] theorem singleToStop_tickRate (s : State) : (singleToStop s).tickRate = s.tickRate := rfl
@[simp] theorem singleToStop_tickPending (s : State) : (singleToStop s).tickPending = s.tickPending := rfl
@[simp] theorem singleToStop_phase (s : State) : (singleToStop s).phase = s.phase := rfl
@[simp] theorem singleToStop_micro (s : State) : (singleToStop s).micro = s.micro := rfl
@[simp] theorem singleToStop_line (s : State) : (singleToStop s).line = s.line := rfl
@[simp] theorem singleToStop_lineLen (s : State) : (singleToStop s).lineLen = s.lineLen := rfl
@[simp] theorem singleToStop_txHeld (s : State) : (singleToStop s).txHeld = s.txHeld := rfl
@[simp] theorem singleToStop_txReady (s : State) : (singleToStop s).txReady = s.txReady := rfl
@[simp] theorem singleToStop_rx (s : State) : (singleToStop s).rx = s.rx := rfl
@[simp] theorem singleToStop_tx (s : State) : (singleToStop s).tx = s.tx := rfl
@[simp] theorem singleToStop_adcDraws (s : State) : (singleToStop s).adcDraws = s.adcDraws := rfl
@[simp] theorem singleToStop_adcLog (s : State) : (singleToStop s).adcLog = s.adcLog := rfl
@[simp] theorem singleToStop_schedule (s : State) : (singleToStop s).schedule = s.schedule := rfl

@[simp] theorem resetLine_params (s : State) : (resetLine s).params = s.params := rfl
@[simp] theorem resetLine_trigPrev (s : State) : (resetLine s).trigPrev = s.trigPrev := rfl
@[simp] theorem resetLine_trigCurr (s : State) : (resetLine s).trigCurr = s.trigCurr := rfl
@[simp] theorem resetLine_trigLevel (s : State) : (resetLine s).trigLevel = s.trigLevel := rfl
@[simp] theorem resetLine_retryCnt (s : State) : (resetLine s).retryCnt = s.retryCnt := rfl
@[simp] theorem resetLine_trigOutcome (s : State) : (resetLine s).trigOutcome = s.trigOutcome := rfl
@[simp] theorem resetLine_buf (s : State) : (resetLine s).buf = s.buf := rfl
@[simp] theorem resetLine_wrPtr (s : State) : (resetLine s).wrPtr = s.wrPtr := rfl
@[simp] theorem resetLine_rdPtr (s : State) : (resetLine s).rdPtr = s.rdPtr := rfl
@[simp] theorem resetLine_burstLength (s : State) : (resetLine s).burstLength = s.burstLength := rfl
@[simp] theorem resetLine_frameCount (s : State) : (resetLine s).frameCount = s.frameCount := rfl
@[simp] theorem resetLine_mode (s : State) : (resetLine s).mode = s.mode := rfl
@[simp] theorem resetLine_runState (s : State) : (resetLine s).runState = s.runState := rfl
@[simp] theorem resetLine_trigMode (s : State) : (resetLine s).trigMode = s.trigMode := rfl
@[simp] theorem resetLine_channel (s : State) : (resetLine s).channel = s.channel := rfl
@[simp] theorem resetLine_auxOut (s : State) : (resetLine s).auxOut = s.auxOut := rfl
@[simp] theorem resetLine_rateIdx (s : State) : (resetLine s).rateIdx = s.rateIdx := rfl
@[simp] theorem resetLine_adcRate (s : State) : (resetLine s).adcRate = s.adcRate := rfl
@[simp] theorem resetLine_tickRate (s : State) : (resetLine s).tickRate = s.tickRate := rfl
@[simp] theorem resetLine_tickPending (s : State) : (resetLine s).tickPending = s.tickPending := rfl
@[simp] theorem resetLine_phase (s : State) : (resetLine s).phase = s.phase := rfl
@[simp] theorem resetLine_micro (s : State) : (resetLine s).micro = s.micro := rfl
@[simp] theorem resetLine_line (s : State) : (resetLine s).line = s.line := rfl
@[simp] theorem resetLine_lineLen (s : State) : (resetLine s).lineLen = 0 := rfl
@[simp] theorem resetLine_txHeld (s : State) : (resetLine s).txHeld = s.txHeld := rfl
@[simp] theorem resetLine_txReady (s : State) : (resetLine s).txReady = s.txReady := rfl
@[simp] theorem resetLine_rx (s : State) : (resetLine s).rx = s.rx := rfl
@[simp] theorem resetLine_tx (s : State) : (resetLine s).tx = s.tx := rfl
@[simp] theorem resetLine_adcDraws (s : State) : (resetLine s).adcDraws = s.adcDraws := rfl
@[simp] theorem resetLine_adcLog (s : State) : (resetLine s).adcLog = s.adcLog := rfl
@[simp] theorem resetLine_schedule (s : State) : (resetLine s).schedule = s.schedule := rfl

@[simp] theorem storeByte_params (b : Byte) (s : State) : (storeByte b s).params = s.params := rfl
@[simp] theorem storeByte_trigPrev (b : Byte) (s : State) : (storeByte b s).trigPrev = s.trigPrev := rfl
@[simp] theorem storeByte_trigCurr (b : Byte) (s : State) : (storeByte b s).trigCurr = s.trigCurr := rfl
@[simp] theorem storeByte_trigLevel (b : Byte) (s : State) : (storeByte b s).trigLevel = s.trigLevel := rfl
@[simp] theorem storeByte_retryCnt (b : Byte) (s : State) : (storeByte b s).retryCnt = s.retryCnt := rfl
@[simp] theorem storeByte_trigOutcome (b : Byte) (s : State) : (storeByte b s).trigOutcome = s.trigOutcome := rfl
@[simp] theorem storeByte_buf (b : Byte) (s : State) : (storeByte b s).buf = s.buf := rfl
@[simp] theorem storeByte_wrPtr (b : Byte) (s : State) : (storeByte b s).wrPtr = s.wrPtr := rfl
@[simp] theorem storeByte_rdPtr (b : Byte) (s : State) : (storeByte b s).rdPtr = s.rdPtr := rfl
@[simp] theorem storeByte_burstLength (b : Byte) (s : State) : (storeByte b s).burstLength = s.burstLength := rfl
@[simp] theorem storeByte_frameCount (b : Byte) (s : State) : (storeByte b s).frameCount = s.frameCount := rfl
@[simp] theorem storeByte_mode (b : Byte) (s : State) : (storeByte b s).mode = s.mode := rfl
@[simp] theorem storeByte_runState (b : Byte) (s : State) : (storeByte b s).runState = s.runState := rfl
@[simp] theorem storeByte_trigMode (b : Byte) (s : State) : (storeByte b s).trigMode = s.trigMode := rfl
@[simp] theorem storeByte_channel (b : Byte) (s : State) : (storeByte b s).channel = s.channel := rfl
@[simp] theorem storeByte_auxOut (b : Byte) (s : State) : (storeByte b s).auxOut = s.auxOut := rfl
@[simp] theorem storeByte_rateIdx (b : Byte) (s : State) : (storeByte b s).rateIdx = s.rateIdx := rfl
@[simp] theorem storeByte_adcRate (b : Byte) (s : State) : (storeByte b s).adcRate = s.adcRate := rfl
@[simp] theorem storeByte_tickRate (b : Byte) (s : State) : (storeByte b s).tickRate = s.tickRate := rfl
@[simp] theorem storeByte_tickPending (b : Byte) (s : State) : (storeByte b s).tickPending = s.tickPending := rfl
@[simp] theorem storeByte_phase (b : Byte) (s : State) : (storeByte b s).phase = s.phase := rfl
@[simp] theorem storeByte_micro (b : Byte) (s : State) : (storeByte b s).micro = s.micro := rfl
@[simp] theorem storeByte_line (b : Byte) (s : State) : (storeByte b s).line = Memory.write s.line s.lineLen b := rfl
@[simp] theorem storeByte_lineLen (b : Byte) (s : State) : (storeByte b s).lineLen = s.lineLen + 1 := rfl
@[simp] theorem storeByte_txHeld (b : Byte) (s : State) : (storeByte b s).txHeld = s.txHeld := rfl
@[simp] theorem storeByte_txReady (b : Byte) (s : State) : (storeByte b s).txReady = s.txReady := rfl
@[simp] theorem storeByte_rx (b : Byte) (s : State) : (storeByte b s).rx = s.rx := rfl
@[simp] theorem storeByte_tx (b : Byte) (s : State) : (storeByte b s).tx = s.tx := rfl
@[simp] theorem storeByte_adcDraws (b : Byte) (s : State) : (storeByte b s).adcDraws = s.adcDraws := rfl
@[simp] theorem storeByte_adcLog (b : Byte) (s : State) : (storeByte b s).adcLog = s.adcLog := rfl
@[simp] theorem storeByte_schedule (b : Byte) (s : State) : (storeByte b s).schedule = s.schedule := rfl

@[simp] theorem beginWait_params (s : State) : (beginWait s).params = s.params := rfl
@[simp] theorem beginWait_trigPrev (s : State) : (beginWait s).trigPrev = s.trigLevel := rfl
@[simp] theorem beginWait_trigCurr (s : State) : (beginWait s).trigCurr = s.trigLevel := rfl
@[simp] theorem beginWait_trigLevel (s : State) : (beginWait s).trigLevel = s.trigLevel := rfl
@[simp] theorem beginWait_retryCnt (s : State) : (beginWait s).retryCnt = 0 := rfl
@[simp] theorem beginWait_trigOutcome (s : State) : (beginWait s).trigOutcome = s.trigOutcome := rfl
@[simp] theorem beginWait_buf (s : State) : (beginWait s).buf = s.buf := rfl
@[simp] theorem beginWait_wrPtr (s : State) : (beginWait s).wrPtr = s.wrPtr := rfl
@[simp] theorem beginWait_rdPtr (s : State) : (beginWait s).rdPtr = s.rdPtr := rfl
@[simp] theorem beginWait_burstLength (s : State) : (beginWait s).burstLength = s.burstLength := rfl
@[simp] theorem beginWait_frameCount (s : State) : (beginWait s).frameCount = s.frameCount := rfl
@[simp] theorem beginWait_mode (s : State) : (beginWait s).mode = s.mode := rfl
@[simp] theorem beginWait_runState (s : State) : (beginWait s).runState = s.runState := rfl
@[simp] theorem beginWait_trigMode (s : State) : (beginWait s).trigMode = s.trigMode := rfl
@[simp] theorem beginWait_channel (s : State) : (beginWait s).channel = s.channel := rfl
@[simp] theorem beginWait_auxOut (s : State) : (beginWait s).auxOut = s.auxOut := rfl
@[simp] theorem beginWait_rateIdx (s : State) : (beginWait s).rateIdx = s.rateIdx := rfl
@[simp] theorem beginWait_adcRate (s : State) : (beginWait s).adcRate = s.adcRate := rfl
@[simp] theorem beginWait_tickRate (s : State) : (beginWait s).tickRate = s.tickRate := rfl
@[simp] theorem beginWait_tickPending (s : State) : (beginWait s).tickPending = s.tickPending := rfl
@[simp] theorem beginWait_phase (s : State) : (beginWait s).phase = s.phase := rfl
@[simp] theorem beginWait_micro (s : State) : (beginWait s).micro = .body := rfl
@[simp] theorem beginWait_line (s : State) : (beginWait s).line = s.line := rfl
@[simp] theorem beginWait_lineLen (s : State) : (beginWait s).lineLen = s.lineLen := rfl
@[simp] theorem beginWait_txHeld (s : State) : (beginWait s).txHeld = s.txHeld := rfl
@[simp] theorem beginWait_txReady (s : State) : (beginWait s).txReady = s.txReady := rfl
@[simp] theorem beginWait_rx (s : State) : (beginWait s).rx = s.rx := rfl
@[simp] theorem beginWait_tx (s : State) : (beginWait s).tx = s.tx := rfl
@[simp] theorem beginWait_adcDraws (s : State) : (beginWait s).adcDraws = s.adcDraws := rfl
@[simp] theorem beginWait_adcLog (s : State) : (beginWait s).adcLog = s.adcLog := rfl
@[simp] theorem beginWait_schedule (s : State) : (beginWait s).schedule = s.schedule := rfl

@[simp] theorem shiftSample_params (v : Sample) (s : State) : (shiftSample v s).params = s.params := rfl
@[simp] theorem shiftSample_trigPrev (v : Sample) (s : State) : (shiftSample v s).trigPrev = s.trigCurr := rfl
@[simp] theorem shiftSample_trigCurr (v : Sample) (s : State) : (shiftSample v s).trigCurr = v := rfl
@[simp] theorem shiftSample_trigLevel (v : Sample) (s : State) : (shiftSample v s).trigLevel = s.trigLevel := rfl
@[simp] theorem shiftSample_retryCnt (v : Sample) (s : State) : (shiftSample v s).retryCnt = s.retryCnt + 1 := rfl
@[simp] theorem shiftSample_trigOutcome (v : Sample) (s : State) : (shiftSample v s).trigOutcome = s.trigOutcome := rfl
@[simp] theorem shiftSample_buf (v : Sample) (s : State) : (shiftSample v s).buf = s.buf := rfl
@[simp] theorem shiftSample_wrPtr (v : Sample) (s : State) : (shiftSample v s).wrPtr = s.wrPtr := rfl
@[simp] theorem shiftSample_rdPtr (v : Sample) (s : State) : (shiftSample v s).rdPtr = s.rdPtr := rfl
@[simp] theorem shiftSample_burstLength (v : Sample) (s : State) : (shiftSample v s).burstLength = s.burstLength := rfl
@[simp] theorem shiftSample_frameCount (v : Sample) (s : State) : (shiftSample v s).frameCount = s.frameCount := rfl
@[simp] theorem shiftSample_mode (v : Sample) (s : State) : (shiftSample v s).mode = s.mode := rfl
@[simp] theorem shiftSample_runState (v : Sample) (s : State) : (shiftSample v s).runState = s.runState := rfl
@[simp] theorem shiftSample_trigMode (v : Sample) (s : State) : (shiftSample v s).trigMode = s.trigMode := rfl
@[simp] theorem shiftSample_channel (v : Sample) (s : State) : (shiftSample v s).channel = s.channel := rfl
@[simp] theorem shiftSample_auxOut (v : Sample) (s : State) : (shiftSample v s).auxOut = s.auxOut := rfl
@[simp] theorem shiftSample_rateIdx (v : Sample) (s : State) : (shiftSample v s).rateIdx = s.rateIdx := rfl
@[simp] theorem shiftSample_adcRate (v : Sample) (s : State) : (shiftSample v s).adcRate = s.adcRate := rfl
@[simp] theorem shiftSample_tickRate (v : Sample) (s : State) : (shiftSample v s).tickRate = s.tickRate := rfl
@[simp] theorem shiftSample_tickPending (v : Sample) (s : State) : (shiftSample v s).tickPending = s.tickPending := rfl
@[simp] theorem shiftSample_phase (v : Sample) (s : State) : (shiftSample v s).phase = s.phase := rfl
@[simp] theorem shiftSample_micro (v : Sample) (s : State) : (shiftSample v s).micro = s.micro := rfl
@[simp] theorem shiftSample_line (v : Sample) (s : State) : (shiftSample v s).line = s.line := rfl
@[simp] theorem shiftSample_lineLen (v : Sample) (s : State) : (shiftSample v s).lineLen = s.lineLen := rfl
@[simp] theorem shiftSample_txHeld (v : Sample) (s : State) : (shiftSample v s).txHeld = s.txHeld := rfl
@[simp] theorem shiftSample_txReady (v : Sample) (s : State) : (shiftSample v s).txReady = s.txReady := rfl
@[simp] theorem shiftSample_rx (v : Sample) (s : State) : (shiftSample v s).rx = s.rx := rfl
@[simp] theorem shiftSample_tx (v : Sample) (s : State) : (shiftSample v s).tx = s.tx := rfl
@[simp] theorem shiftSample_adcDraws (v : Sample) (s : State) : (shiftSample v s).adcDraws = s.adcDraws := rfl
@[simp] theorem shiftSample_adcLog (v : Sample) (s : State) : (shiftSample v s).adcLog = s.adcLog := rfl
@[simp] theorem shiftSample_schedule (v : Sample) (s : State) : (shiftSample v s).schedule = s.schedule := rfl

@[simp] theorem endWait_params (o : TriggerOutcome) (p : Phase) (s : State) : (endWait o p s).params = s.params := rfl
@[simp] theorem endWait_trigPrev (o : TriggerOutcome) (p : Phase) (s : State) : (endWait o p s).trigPrev = s.trigPrev := rfl
@[simp] theorem endWait_trigCurr (o : TriggerOutcome) (p : Phase) (s : State) : (endWait o p s).trigCurr = s.trigCurr := rfl
@[simp] theorem endWait_trigLevel (o : TriggerOutcome) (p : Phase) (s : State) : (endWait o p s).trigLevel = s.trigLevel := rfl
@[simp] theorem endWait_retryCnt (o : TriggerOutcome) (p : Phase) (s : State) : (endWait o p s).retryCnt = s.retryCnt := rfl
@[simp] theorem endWait_trigOutcome (o : TriggerOutcome) (p : Phase) (s : State) : (endWait o p s).trigOutcome = o := rfl
@[simp] theorem endWait_buf (o : TriggerOutcome) (p : Phase) (s : State) : (endWait o p s).buf = s.buf := rfl
@[simp] theorem endWait_wrPtr (o : TriggerOutcome) (p : Phase) (s : State) : (endWait o p s).wrPtr = s.wrPtr := rfl
@[simp] theorem endWait_rdPtr (o : TriggerOutcome) (p : Phase) (s : State) : (endWait o p s).rdPtr = s.rdPtr := rfl
@[simp] theorem endWait_burstLength (o : TriggerOutcome) (p : Phase) (s : State) : (endWait o p s).burstLength = s.burstLength := rfl
@[simp] theorem endWait_frameCount (o : TriggerOutcome) (p : Phase) (s : State) : (endWait o p s).frameCount = s.frameCount := rfl
@[simp] theorem endWait_mode (o : TriggerOutcome) (p : Phase) (s : State) : (endWait o p s).mode = s.mode := rfl
@[simp] theorem endWait_runState (o : TriggerOutcome) (p : Phase) (s : State) : (endWait o p s).runState = s.runState := rfl
@[simp] theorem endWait_trigMode (o : TriggerOutcome) (p : Phase) (s : State) : (endWait o p s).trigMode = s.trigMode := rfl
@[simp] theorem endWait_channel (o : TriggerOutcome) (p : Phase) (s : State) : (endWait o p s).channel = s.channel := rfl
@[simp] theorem endWait_auxOut (o : TriggerOutcome) (p : Phase) (s : State) : (endWait o p s).auxOut = s.auxOut := rfl
@[simp] theorem endWait_rateIdx (o : TriggerOutcome) (p : Phase) (s : State) : (endWait o p s).rateIdx = s.rateIdx := rfl
@[simp] theorem endWait_adcRate (o : TriggerOutcome) (p : Phase) (s : State) : (endWait o p s).adcRate = s.adcRate := rfl
@[simp] theorem endWait_tickRate (o : TriggerOutcome) (p : Phase) (s : State) : (endWait o p s).tickRate = s.tickRate := rfl
@[simp] theorem endWait_tickPending (o : TriggerOutcome) (p : Phase) (s : State) : (endWait o p s).tickPending = s.tickPending := rfl
@[simp] theorem endWait_phase (o : TriggerOutcome) (p : Phase) (s : State) : (endWait o p s).phase = p := rfl
@[simp] theorem endWait_line (o : TriggerOutcome) (p : Phase) (s : State) : (endWait o p s).line = s.line := rfl
@[simp] theorem endWait_lineLen (o : TriggerOutcome) (p : Phase) (s : State) : (endWait o p s).lineLen = s.lineLen := rfl
@[simp] theorem endWait_txHeld (o : TriggerOutcome) (p : Phase) (s : State) : (endWait o p s).txHeld = s.txHeld := rfl
@[simp] theorem endWait_txReady (o : TriggerOutcome) (p : Phase) (s : State) : (endWait o p s).txReady = s.txReady := rfl
@[simp] theorem endWait_rx (o : TriggerOutcome) (p : Phase) (s : State) : (endWait o p s).rx = s.rx := rfl
@[simp] theorem endWait_tx (o : TriggerOutcome) (p : Phase) (s : State) : (endWait o p s).tx = s.tx := rfl
@[simp] theorem endWait_adcDraws (o : TriggerOutcome) (p : Phase) (s : State) : (endWait o p s).adcDraws = s.adcDraws := rfl
@[simp] theorem endWait_adcLog (o : TriggerOutcome) (p : Phase) (s : State) : (endWait o p s).adcLog = s.adcLog := rfl
@[simp] theorem endWait_schedule (o : TriggerOutcome) (p : Phase) (s : State) : (endWait o p s).schedule = s.schedule := rfl

@[simp] theorem endFrame_params (s : State) : (endFrame s).params = s.params := rfl
@[simp] theorem endFrame_trigPrev (s : State) : (endFrame s).trigPrev = s.trigPrev := rfl
@[simp] theorem endFrame_trigCurr (s : State) : (endFrame s).trigCurr = s.trigCurr := rfl
@[simp] theorem endFrame_trigLevel (s : State) : (endFrame s).trigLevel = s.trigLevel := rfl
@[simp] theorem endFrame_retryCnt (s : State) : (endFrame s).retryCnt = s.retryCnt := rfl
@[simp] theorem endFrame_trigOutcome (s : State) : (endFrame s).trigOutcome = s.trigOutcome := rfl
@[simp] theorem endFrame_buf (s : State) : (endFrame s).buf = s.buf := rfl
@[simp] theorem endFrame_wrPtr (s : State) : (endFrame s).wrPtr = s.wrPtr := rfl
@[simp] theorem endFrame_rdPtr (s : State) : (endFrame s).rdPtr = s.rdPtr := rfl
@[simp] theorem endFrame_burstLength (s : State) : (endFrame s).burstLength = s.burstLength := rfl
@[simp] theorem endFrame_frameCount (s : State) : (endFrame s).frameCount = s.frameCount := rfl
@[simp] theorem endFrame_mode (s : State) : (endFrame s).mode = s.mode := rfl
@[simp] theorem endFrame_runState (s : State) : (endFrame s).runState = if s.runState = .single then .stop else s.runState := rfl
@[simp] theorem endFrame_trigMode (s : State) : (endFrame s).trigMode = s.trigMode := rfl
@[simp] theorem endFrame_channel (s : State) : (endFrame s).channel = s.channel := rfl
@[simp] theorem endFrame_auxOut (s : State) : (endFrame s).auxOut = s.auxOut := rfl
@[simp] theorem endFrame_rateIdx (s : State) : (endFrame s).rateIdx = s.rateIdx := rfl
@[simp] theorem endFrame_adcRate (s : State) : (endFrame s).adcRate = s.adcRate := rfl
@[simp] theorem endFrame_tickRate (s : State) : (endFrame s).tickRate = s.tickRate := rfl
@[simp] theorem endFrame_tickPending (s : State) : (endFrame s).tickPending = s.tickPending := rfl
@[simp] theorem endFrame_phase (s : State) : (endFrame s).phase = .drain := rfl
@[simp] theorem endFrame_micro (s : State) : (endFrame s).micro = .start := rfl
@[simp] theorem endFrame_line (s : State) : (endFrame s).line = s.line := rfl
@[simp] theorem endFrame_lineLen (s : State) : (endFrame s).lineLen = s.lineLen := rfl
@[simp] theorem endFrame_txHeld (s : State) : (endFrame s).txHeld = s.txHeld := rfl
@[simp] theorem endFrame_txReady (s : State) : (endFrame s).txReady = s.txReady := rfl
@[simp] theorem endFrame_rx (s : State) : (endFrame s).rx = s.rx := rfl
@[simp] theorem endFrame_tx (s : State) : (endFrame s).tx = s.tx := rfl
@[simp] theorem endFrame_adcDraws (s : State) : (endFrame s).adcDraws = s.adcDraws := rfl
@[simp] theorem endFrame_adcLog (s : State) : (endFrame s).adcLog = s.adcLog := rfl
@[simp] theorem endFrame_schedule (s : State) : (endFrame s).schedule = s.schedule := rfl

@[simp] theorem takeDraws_params (n : Nat) (s : State) : (takeDraws n s).params = s.params := rfl
@[simp] theorem takeDraws_trigPrev (n : Nat) (s : State) : (takeDraws n s).trigPrev = s.trigPrev := rfl
@[simp] theorem takeDraws_trigCurr (n : Nat) (s : State) : (takeDraws n s).trigCurr = s.trigCurr := rfl
@[simp] theorem takeDraws_trigLevel (n : Nat) (s : State) : (takeDraws n s).trigLevel = s.trigLevel := rfl
@[simp] theorem takeDraws_retryCnt (n : Nat) (s : State) : (takeDraws n s).retryCnt = s.retryCnt := rfl
@[simp] theorem takeDraws_trigOutcome (n : Nat) (s : State) : (takeDraws n s).trigOutcome = s.trigOutcome := rfl
@[simp] theorem takeDraws_buf (n : Nat) (s : State) : (takeDraws n s).buf = s.buf := rfl
@[simp] theorem takeDraws_wrPtr (n : Nat) (s : State) : (takeDraws n s).wrPtr = s.wrPtr := rfl
@[simp] theorem takeDraws_rdPtr (n : Nat) (s : State) : (takeDraws n s).rdPtr = s.rdPtr := rfl
@[simp] theorem takeDraws_burstLength (n : Nat) (s : State) : (takeDraws n s).burstLength = s.burstLength := rfl
@[simp] theorem takeDraws_frameCount (n : Nat) (s : State) : (takeDraws n s).frameCount = s.frameCount := rfl
@[simp] theorem takeDraws_mode (n : Nat) (s : State) : (takeDraws n s).mode = s.mode := rfl
@[simp] theorem takeDraws_runState (n : Nat) (s : State) : (takeDraws n s).runState = s.runState := rfl
@[simp] theorem takeDraws_trigMode (n : Nat) (s : State) : (takeDraws n s).trigMode = s.trigMode := rfl
@[simp] theorem takeDraws_channel (n : Nat) (s : State) : (takeDraws n s).channel = s.channel := rfl
@[simp] theorem takeDraws_auxOut (n : Nat) (s : State) : (takeDraws n s).auxOut = s.auxOut := rfl
@[simp] theorem takeDraws_rateIdx (n : Nat) (s : State) : (takeDraws n s).rateIdx = s.rateIdx := rfl
@[simp] theorem takeDraws_adcRate (n : Nat) (s : State) : (takeDraws n s).adcRate = s.adcRate := rfl
@[simp] theorem takeDraws_tickRate (n : Nat) (s : State) : (takeDraws n s).tickRate = s.tickRate := rfl
@[simp] theorem takeDraws_tickPending (n : Nat) (s : State) : (takeDraws n s).tickPending = s.tickPending := rfl
@[simp] theorem takeDraws_phase (n : Nat) (s : State) : (takeDraws n s).phase = s.phase := rfl
@[simp] theorem takeDraws_micro (n : Nat) (s : State) : (takeDraws n s).micro = s.micro := rfl
@[simp] theorem takeDraws_line (n : Nat) (s : State) : (takeDraws n s).line = s.line := rfl
@[simp] theorem takeDraws_lineLen (n : Nat) (s : State) : (takeDraws n s).lineLen = s.lineLen := rfl
@[simp] theorem takeDraws_txHeld (n : Nat) (s : State) : (takeDraws n s).txHeld = s.txHeld := rfl
@[simp] theorem takeDraws_txReady (n : Nat) (s : State) : (takeDraws n s).txReady = s.txReady := rfl
@[simp] theorem takeDraws_rx (n : Nat) (s : State) : (takeDraws n s).rx = s.rx := rfl
@[simp] theorem takeDraws_tx (n : Nat) (s : State) : (takeDraws n s).tx = s.tx := rfl
@[simp] theorem takeDraws_adcDraws (n : Nat) (s : State) : (takeDraws n s).adcDraws = s.adcDraws.drop n := rfl
@[simp] theorem takeDraws_adcLog (n : Nat) (s : State) : (takeDraws n s).adcLog = s.adcLog ++ List.replicate n { channel := s.channel, rate := s.adcRate } := rfl
@[simp] theorem takeDraws_schedule (n : Nat) (s : State) : (takeDraws n s).schedule = s.schedule := rfl

@[simp] theorem hostSends_params (b : Byte) (s : State) : (hostSends b s).params = s.params := rfl
@[simp] theorem hostSends_trigPrev (b : Byte) (s : State) : (hostSends b s).trigPrev = s.trigPrev := rfl
@[simp] theorem hostSends_trigCurr (b : Byte) (s : State) : (hostSends b s).trigCurr = s.trigCurr := rfl
@[simp] theorem hostSends_trigLevel (b : Byte) (s : State) : (hostSends b s).trigLevel = s.trigLevel := rfl
@[simp] theorem hostSends_retryCnt (b : Byte) (s : State) : (hostSends b s).retryCnt = s.retryCnt := rfl
@[simp] theorem hostSends_trigOutcome (b : Byte) (s : State) : (hostSends b s).trigOutcome = s.trigOutcome := rfl
@[simp] theorem hostSends_buf (b : Byte) (s : State) : (hostSends b s).buf = s.buf := rfl
@[simp] theorem hostSends_wrPtr (b : Byte) (s : State) : (hostSends b s).wrPtr = s.wrPtr := rfl
@[simp] theorem hostSends_rdPtr (b : Byte) (s : State) : (hostSends b s).rdPtr = s.rdPtr := rfl
@[simp] theorem hostSends_burstLength (b : Byte) (s : State) : (hostSends b s).burstLength = s.burstLength := rfl
@[simp] theorem hostSends_frameCount (b : Byte) (s : State) : (hostSends b s).frameCount = s.frameCount := rfl
@[simp] theorem hostSends_mode (b : Byte) (s : State) : (hostSends b s).mode = s.mode := rfl
@[simp] theorem hostSends_runState (b : Byte) (s : State) : (hostSends b s).runState = s.runState := rfl
@[simp] theorem hostSends_trigMode (b : Byte) (s : State) : (hostSends b s).trigMode = s.trigMode := rfl
@[simp] theorem hostSends_channel (b : Byte) (s : State) : (hostSends b s).channel = s.channel := rfl
@[simp] theorem hostSends_auxOut (b : Byte) (s : State) : (hostSends b s).auxOut = s.auxOut := rfl
@[simp] theorem hostSends_rateIdx (b : Byte) (s : State) : (hostSends b s).rateIdx = s.rateIdx := rfl
@[simp] theorem hostSends_adcRate (b : Byte) (s : State) : (hostSends b s).adcRate = s.adcRate := rfl
@[simp] theorem hostSends_tickRate (b : Byte) (s : State) : (hostSends b s).tickRate = s.tickRate := rfl
@[simp] theorem hostSends_tickPending (b : Byte) (s : State) : (hostSends b s).tickPending = s.tickPending := rfl
@[simp] theorem hostSends_phase (b : Byte) (s : State) : (hostSends b s).phase = s.phase := rfl
@[simp] theorem hostSends_micro (b : Byte) (s : State) : (hostSends b s).micro = s.micro := rfl
@[simp] theorem hostSends_line (b : Byte) (s : State) : (hostSends b s).line = s.line := rfl
@[simp] theorem hostSends_lineLen (b : Byte) (s : State) : (hostSends b s).lineLen = s.lineLen := rfl
@[simp] theorem hostSends_txHeld (b : Byte) (s : State) : (hostSends b s).txHeld = s.txHeld := rfl
@[simp] theorem hostSends_txReady (b : Byte) (s : State) : (hostSends b s).txReady = s.txReady := rfl
@[simp] theorem hostSends_rx (b : Byte) (s : State) : (hostSends b s).rx = s.rx ++ [b] := rfl
@[simp] theorem hostSends_tx (b : Byte) (s : State) : (hostSends b s).tx = s.tx := rfl
@[simp] theorem hostSends_adcDraws (b : Byte) (s : State) : (hostSends b s).adcDraws = s.adcDraws := rfl
@[simp] theorem hostSends_adcLog (b : Byte) (s : State) : (hostSends b s).adcLog = s.adcLog := rfl
@[simp] theorem hostSends_schedule (b : Byte) (s : State) : (hostSends b s).schedule = s.schedule := rfl

@[simp] theorem tickArrives_params (s : State) : (tickArrives s).params = s.params := rfl
@[simp] theorem tickArrives_trigPrev (s : State) : (tickArrives s).trigPrev = s.trigPrev := rfl
@[simp] theorem tickArrives_trigCurr (s : State) : (tickArrives s).trigCurr = s.trigCurr := rfl
@[simp] theorem tickArrives_trigLevel (s : State) : (tickArrives s).trigLevel = s.trigLevel := rfl
@[simp] theorem tickArrives_retryCnt (s : State) : (tickArrives s).retryCnt = s.retryCnt := rfl
@[simp] theorem tickArrives_trigOutcome (s : State) : (tickArrives s).trigOutcome = s.trigOutcome := rfl
@[simp] theorem tickArrives_buf (s : State) : (tickArrives s).buf = s.buf := rfl
@[simp] theorem tickArrives_wrPtr (s : State) : (tickArrives s).wrPtr = s.wrPtr := rfl
@[simp] theorem tickArrives_rdPtr (s : State) : (tickArrives s).rdPtr = s.rdPtr := rfl
@[simp] theorem tickArrives_burstLength (s : State) : (tickArrives s).burstLength = s.burstLength := rfl
@[simp] theorem tickArrives_frameCount (s : State) : (tickArrives s).frameCount = s.frameCount := rfl
@[simp] theorem tickArrives_mode (s : State) : (tickArrives s).mode = s.mode := rfl
@[simp] theorem tickArrives_runState (s : State) : (tickArrives s).runState = s.runState := rfl
@[simp] theorem tickArrives_trigMode (s : State) : (tickArrives s).trigMode = s.trigMode := rfl
@[simp] theorem tickArrives_channel (s : State) : (tickArrives s).channel = s.channel := rfl
@[simp] theorem tickArrives_auxOut (s : State) : (tickArrives s).auxOut = s.auxOut := rfl
@[simp] theorem tickArrives_rateIdx (s : State) : (tickArrives s).rateIdx = s.rateIdx := rfl
@[simp] theorem tickArrives_adcRate (s : State) : (tickArrives s).adcRate = s.adcRate := rfl
@[simp] theorem tickArrives_tickRate (s : State) : (tickArrives s).tickRate = s.tickRate := rfl
@[simp] theorem tickArrives_tickPending (s : State) : (tickArrives s).tickPending = true := rfl
@[simp] theorem tickArrives_phase (s : State) : (tickArrives s).phase = s.phase := rfl
@[simp] theorem tickArrives_micro (s : State) : (tickArrives s).micro = s.micro := rfl
@[simp] theorem tickArrives_line (s : State) : (tickArrives s).line = s.line := rfl
@[simp] theorem tickArrives_lineLen (s : State) : (tickArrives s).lineLen = s.lineLen := rfl
@[simp] theorem tickArrives_txHeld (s : State) : (tickArrives s).txHeld = s.txHeld := rfl
@[simp] theorem tickArrives_txReady (s : State) : (tickArrives s).txReady = s.txReady := rfl
@[simp] theorem tickArrives_rx (s : State) : (tickArrives s).rx = s.rx := rfl
@[simp] theorem tickArrives_tx (s : State) : (tickArrives s).tx = s.tx := rfl
@[simp] theorem tickArrives_adcDraws (s : State) : (tickArrives s).adcDraws = s.adcDraws := rfl
@[simp] theorem tickArrives_adcLog (s : State) : (tickArrives s).adcLog = s.adcLog := rfl
@[simp] theorem tickArrives_schedule (s : State) : (tickArrives s).schedule = s.schedule := rfl

@[simp] theorem transportReady_params (r : Bool) (s : State) : (transportReady r s).params = s.params := rfl
@[simp] theorem transportReady_trigPrev (r : Bool) (s : State) : (transportReady r s).trigPrev = s.trigPrev := rfl
@[simp] theorem transportReady_trigCurr (r : Bool) (s : State) : (transportReady r s).trigCurr = s.trigCurr := rfl
@[simp] theorem transportReady_trigLevel (r : Bool) (s : State) : (transportReady r s).trigLevel = s.trigLevel := rfl
@[simp] theorem transportReady_retryCnt (r : Bool) (s : State) : (transportReady r s).retryCnt = s.retryCnt := rfl
@[simp] theorem transportReady_trigOutcome (r : Bool) (s : State) : (transportReady r s).trigOutcome = s.trigOutcome := rfl
@[simp] theorem transportReady_buf (r : Bool) (s : State) : (transportReady r s).buf = s.buf := rfl
@[simp] theorem transportReady_wrPtr (r : Bool) (s : State) : (transportReady r s).wrPtr = s.wrPtr := rfl
@[simp] theorem transportReady_rdPtr (r : Bool) (s : State) : (transportReady r s).rdPtr = s.rdPtr := rfl
@[simp] theorem transportReady_burstLength (r : Bool) (s : State) : (transportReady r s).burstLength = s.burstLength := rfl
@[simp] theorem transportReady_frameCount (r : Bool) (s : State) : (transportReady r s).frameCount = s.frameCount := rfl
@[simp] theorem transportReady_mode (r : Bool) (s : State) : (transportReady r s).mode = s.mode := rfl
@[simp] theorem transportReady_runState (r : Bool) (s : State) : (transportReady r s).runState = s.runState := rfl
@[simp] theorem transportReady_trigMode (r : Bool) (s : State) : (transportReady r s).trigMode = s.trigMode := rfl
@[simp] theorem transportReady_channel (r : Bool) (s : State) : (transportReady r s).channel = s.channel := rfl
@[simp] theorem transportReady_auxOut (r : Bool) (s : State) : (transportReady r s).auxOut = s.auxOut := rfl
@[simp] theorem transportReady_rateIdx (r : Bool) (s : State) : (transportReady r s).rateIdx = s.rateIdx := rfl
@[simp] theorem transportReady_adcRate (r : Bool) (s : State) : (transportReady r s).adcRate = s.adcRate := rfl
@[simp] theorem transportReady_tickRate (r : Bool) (s : State) : (transportReady r s).tickRate = s.tickRate := rfl
@[simp] theorem transportReady_tickPending (r : Bool) (s : State) : (transportReady r s).tickPending = s.tickPending := rfl
@[simp] theorem transportReady_phase (r : Bool) (s : State) : (transportReady r s).phase = s.phase := rfl
@[simp] theorem transportReady_micro (r : Bool) (s : State) : (transportReady r s).micro = s.micro := rfl
@[simp] theorem transportReady_line (r : Bool) (s : State) : (transportReady r s).line = s.line := rfl
@[simp] theorem transportReady_lineLen (r : Bool) (s : State) : (transportReady r s).lineLen = s.lineLen := rfl
@[simp] theorem transportReady_txHeld (r : Bool) (s : State) : (transportReady r s).txHeld = s.txHeld := rfl
@[simp] theorem transportReady_txReady (r : Bool) (s : State) : (transportReady r s).txReady = r := rfl
@[simp] theorem transportReady_rx (r : Bool) (s : State) : (transportReady r s).rx = s.rx := rfl
@[simp] theorem transportReady_tx (r : Bool) (s : State) : (transportReady r s).tx = s.tx := rfl
@[simp] theorem transportReady_adcDraws (r : Bool) (s : State) : (transportReady r s).adcDraws = s.adcDraws := rfl
@[simp] theorem transportReady_adcLog (r : Bool) (s : State) : (transportReady r s).adcLog = s.adcLog := rfl
@[simp] theorem transportReady_schedule (r : Bool) (s : State) : (transportReady r s).schedule = s.schedule := rfl

theorem enter_micro (p : Phase) (s : State) : (enter p s).micro = match p with | .cXmit => .body | _ => .start := rfl

end Sys2Proof.Machine
end

