-- ==== Sys2Proof/Laws/Ops.lean ====
section
/-! SUPPORT. One lemma for each shared operation: all that it can do. -/

namespace Sys2Proof.Machine

/-- Everything a conversion can do (R82). -/
theorem adcRead_next {s t : State} {k : Sample → State → Result} (h : adcRead s k = .next t) :
    ∃ v draws, s.adcDraws = v :: draws ∧
      k v { s with adcDraws := draws, adcLog := s.adcLog ++ [{ channel := s.channel, rate := s.adcRate }] } = .next t := by
  unfold adcRead at h
  split at h
  · cases h
  · exact ⟨_, _, ‹_›, h⟩

/-- Everything a frame store write can do (R41). -/
theorem memWrite_next {i : Nat} {v : Sample} {s t : State} {k : State → Result} (h : memWrite i v s k = .next t) :
    i < s.params.nframe ∧ k { s with buf := Memory.write s.buf i v } = .next t := by
  unfold memWrite at h
  split at h
  · exact ⟨‹_›, h⟩
  · cases h

/-- A push that the transport takes at once (R86). -/
theorem txPush_ready {b : Byte} {s : State} (hr : s.txReady = true) (hh : s.txHeld = []) :
    txPush b s = { s with tx := s.tx ++ [b] } := by
  simp [txPush, hr, hh]

/-- A push that the transport does not take at once (R86, R170). -/
theorem txPush_held {b : Byte} {s : State} (h : s.txReady = false ∨ s.txHeld ≠ []) :
    txPush b s = { s with txHeld := s.txHeld ++ [b] } := by
  rcases h with h | h <;> simp [txPush, h]

/-- Nothing is dropped or reordered, taken or held (R45). -/
theorem txPush_stream (b : Byte) (s : State) :
    (txPush b s).tx ++ (txPush b s).txHeld = s.tx ++ s.txHeld ++ [b] := by
  by_cases h : s.txReady = true ∧ s.txHeld = []
  · simp [txPush_ready h.1 h.2, h.2]
  · have : s.txReady = false ∨ s.txHeld ≠ [] := by
      rcases Bool.eq_false_or_eq_true s.txReady with hr | hr
      · exact .inr fun hh => h ⟨hr, hh⟩
      · exact .inl hr
    simp [txPush_held this]

/-- An event raised in a line changes only the line's length and the outcome (R204 to R207). -/
theorem raiseEvent_eq (e : Event) (s : State) :
    raiseEvent e s = s ∨ raiseEvent e s = { s with trigOutcome := .timedOut } ∨ raiseEvent e s = { s with lineLen := 0 } := by
  cases e
  · exact .inr (.inl rfl)
  · exact .inr (.inr rfl)
  · exact .inl rfl
  · exact .inl rfl

/-- An ignored line leaves everything but the emptied buffer (R155). -/
theorem ignoreLine_eq (r : Reject) (s : State) : ignoreLine r s = { s with lineLen := 0 } := by
  cases r <;> rfl

/-- Everything an append can do (R152, R153). -/
theorem appendByte_next {b : Byte} {s t : State} (h : appendByte b s = .next t) :
    s.lineLen < Config.lineMax ∧
      t = { s with
        line := Memory.write s.line s.lineLen b
        lineLen := if s.lineLen + 1 = Config.lineMax then 0 else s.lineLen + 1 } := by
  unfold appendByte at h
  split at h
  · refine ⟨‹_›, ?_⟩
    by_cases hl : (storeByte b s).lineLen = Config.lineMax
    · rw [if_pos hl] at h
      cases h
      rw [if_pos (show s.lineLen + 1 = Config.lineMax from hl)]
      rfl
    · rw [if_neg hl] at h
      cases h
      rw [if_neg (show ¬s.lineLen + 1 = Config.lineMax from hl)]
      rfl
  · cases h

/-- Everything an iteration of the trigger wait can do (R102 to R105). -/
theorem waitIteration_next {after : Phase} {s t : State} (h : waitIteration after s = .next t) :
    (s.retryCnt < s.params.retryLimit ∧ ∃ v draws, s.adcDraws = v :: draws ∧
      let u := shiftSample v { s with
        adcDraws := draws, adcLog := s.adcLog ++ [{ channel := s.channel, rate := s.adcRate }] }
      (edgeFires s.trigMode s.trigLevel s.trigCurr v = true ∧ t = endWait .satisfied after u ∨
        edgeFires s.trigMode s.trigLevel s.trigCurr v = false ∧ t = u)) ∨
    (s.params.retryLimit ≤ s.retryCnt ∧ t = enter after { s with trigOutcome := .timedOut }) := by
  unfold waitIteration at h
  split at h
  · obtain ⟨v, draws, hd, h⟩ := adcRead_next h
    refine .inl ⟨‹_›, v, draws, hd, ?_⟩
    split at h <;> cases h <;> simp [*]
  · cases h
    exact .inr ⟨Nat.le_of_not_lt ‹_›, rfl⟩

/-- Everything a step of the trigger wait can do (R100 to R105). -/
theorem waitStep_next {after : Phase} {s t : State} (h : waitStep after s = .next t) :
    (s.trigMode = .free ∧ t = endWait .satisfied after s) ∨
    (s.trigMode ≠ .free ∧ s.micro = .start ∧ t = beginWait s) ∨
    (s.trigMode ≠ .free ∧ s.micro ≠ .start ∧ waitIteration after s = .next t) := by
  unfold waitStep at h
  split at h
  · cases h
    exact .inl ⟨‹_›, rfl⟩
  · split at h
    · cases h
      exact .inr (.inl ⟨‹_›, ‹_›, rfl⟩)
    · exact .inr (.inr ⟨‹_›, ‹_›, h⟩)

/-- Everything a step of the burst fill can do (R120, R121). -/
theorem fillStep_next {s t : State} (h : fillStep s = .next t) :
    (s.micro = .start ∧ t = { s with wrPtr := 0, micro := .body }) ∨
    (s.micro ≠ .start ∧ s.wrPtr < s.burstLength ∧ s.wrPtr < s.params.nframe ∧ ∃ v draws, s.adcDraws = v :: draws ∧
      t = { s with
        adcDraws := draws, adcLog := s.adcLog ++ [{ channel := s.channel, rate := s.adcRate }]
        buf := Memory.write s.buf s.wrPtr v, wrPtr := s.wrPtr + 1 }) ∨
    (s.micro ≠ .start ∧ s.burstLength ≤ s.wrPtr ∧ t = endFill s) := by
  unfold fillStep at h
  split at h
  · cases h
    exact .inl ⟨‹_›, rfl⟩
  · split at h
    · obtain ⟨v, draws, hd, h⟩ := adcRead_next h
      obtain ⟨hi, h⟩ := memWrite_next h
      cases h
      exact .inr (.inl ⟨‹_›, ‹_›, hi, v, draws, hd, rfl⟩)
    · cases h
      exact .inr (.inr ⟨‹_›, Nat.le_of_not_lt ‹_›, rfl⟩)

/-- Everything AdvanceOne can do (R123). -/
theorem advanceOne_next {s t : State} (h : advanceOne s = .next t) :
    ∃ v draws, s.adcDraws = v :: draws ∧
      let u := { s with
        adcDraws := draws, adcLog := s.adcLog ++ [{ channel := s.channel, rate := s.adcRate }]
        buf := Memory.write s.buf 0 v, wrPtr := 1 }
      t = if s.runState = .stop then enter .drain u else enter .cXmit u := by
  unfold advanceOne at h
  obtain ⟨v, draws, hd, h⟩ := adcRead_next h
  obtain ⟨-, h⟩ := memWrite_next h
  refine ⟨v, draws, hd, ?_⟩
  dsimp only at h ⊢
  split at h <;> cases h <;> simp_all

/-- Everything the start or the end of a read-out can do (R124). -/
theorem readOutStep_next {s t : State} (h : readOutStep s = .next t) :
    (s.micro = .start ∧ t = { s with rdPtr := 0, micro := .body }) ∨
    (s.micro ≠ .start ∧ s.rdPtr < s.params.nframe ∧ t = endFrame s) := by
  unfold readOutStep at h
  split at h
  · cases h
    exact .inl ⟨‹_›, rfl⟩
  · split at h
    · cases h
      exact .inr ⟨‹_›, ‹_›, rfl⟩
    · cases h

/-- Everything an issued instruction can do (R30). -/
theorem issue_next {i : Instr} {s t : State} (h : issue i s = .next t) : ∃ u, exec i s = .next u ∧ t = retire u := by
  unfold issue at h
  split at h
  · cases h
    exact ⟨_, ‹_›, rfl⟩
  · cases h
  · cases h

end Sys2Proof.Machine
end

