-- ==== Sys2Proof/Laws/Exec.lean ====
section
/-! SUPPORT. The dispatch, arm by arm, and what any instruction can touch. -/

namespace Sys2Proof.Machine

section
variable (s : State)

@[simp] theorem exec_setContinuousMode (d : BitVec 2) :
    exec (.setContinuousMode d) s = execSetContinuousMode d s := rfl
@[simp] theorem exec_setBurstMode (d : BitVec 2) : exec (.setBurstMode d) s = execSetBurstMode d s := rfl
@[simp] theorem exec_setRunStateStop : exec .setRunStateStop s = execSetRunStateStop s := rfl
@[simp] theorem exec_setRunStateRun : exec .setRunStateRun s = execSetRunStateRun s := rfl
@[simp] theorem exec_setRunStateSingle : exec .setRunStateSingle s = execSetRunStateSingle s := rfl
@[simp] theorem exec_setTriggerModePositive : exec .setTriggerModePositive s = execSetTriggerModePositive s := rfl
@[simp] theorem exec_setTriggerModeNegative : exec .setTriggerModeNegative s = execSetTriggerModeNegative s := rfl
@[simp] theorem exec_setTriggerModeFree : exec .setTriggerModeFree s = execSetTriggerModeFree s := rfl
@[simp] theorem exec_setAuxOutput (d : BitVec 1) : exec (.setAuxOutput d) s = execSetAuxOutput d s := rfl
@[simp] theorem exec_setChannel (d : BitVec 2) : exec (.setChannel d) s = execSetChannel d s := rfl
@[simp] theorem exec_sampleHi (p : BitVec 5) : exec (.sampleHi p) s = .next (txPush (wire 0#3 p) s) := rfl
@[simp] theorem exec_burstMid (p : BitVec 5) : exec (.burstMid p) s = .next (txPush (wire 1#3 p) s) := rfl
@[simp] theorem exec_burstLast (p : BitVec 5) : exec (.burstLast p) s = .next (txPush (wire 2#3 p) s) := rfl
@[simp] theorem exec_contMid (p : BitVec 5) : exec (.contMid p) s = .next (txPush (wire 3#3 p) s) := rfl
@[simp] theorem exec_contLast (p : BitVec 5) : exec (.contLast p) s = .next (txPush (wire 5#3 p) s) := rfl
@[simp] theorem exec_discard : exec .discard s = .next (txPush 0xc0#8 s) := rfl

end

/-- The wire instructions of a sample push its byte under a flag (R142, R143). -/
theorem exec_hiInstr (v : Sample) (s : State) : exec (hiInstr v) s = .next (txPush (wire 0#3 (v.extractLsb' 5 5)) s) := rfl

theorem exec_loInstr (v : Sample) (cont last : Bool) (s : State) :
    exec (loInstr v cont last) s = .next (txPush (wire (flagOf cont last) (v.extractLsb' 0 5)) s) := by
  cases cont <;> cases last <;> rfl

/-- What every instruction leaves alone, commands and wire bytes alike (R169 (f), R169 (g)). -/
theorem exec_untouched {i : Instr} {s t : State} (h : exec i s = .next t) :
    t.params = s.params ∧ t.trigPrev = s.trigPrev ∧ t.trigCurr = s.trigCurr ∧ t.trigLevel = s.trigLevel ∧
    t.retryCnt = s.retryCnt ∧ t.trigOutcome = s.trigOutcome ∧ t.buf = s.buf ∧
    t.tickPending = s.tickPending ∧ t.phase = s.phase ∧ t.micro = s.micro ∧ t.line = s.line ∧ t.lineLen = s.lineLen ∧
    t.txReady = s.txReady ∧ t.rx = s.rx ∧ t.adcDraws = s.adcDraws ∧ t.adcLog = s.adcLog ∧ t.schedule = s.schedule := by
  cases i <;> cases h <;> simp

/-- No instruction moves a pointer of the frame store but to its idle value (log 12). -/
theorem exec_pointers {i : Instr} {s t : State} (h : exec i s = .next t) :
    t.wrPtr = s.wrPtr ∧ t.rdPtr = s.rdPtr ∨ t.wrPtr = 0 ∧ t.rdPtr = 0 := by
  cases i <;> cases h <;> first | exact .inl ⟨rfl, rfl⟩ | exact .inr ⟨rfl, rfl⟩

/-- A wire byte touches the TX stream alone. -/
theorem exec_wire {i : Instr} {s t : State} (hi : i.stream = .tx) (h : exec i s = .next t) :
    ∃ b, encode i = [b] ∧ t = txPush b s := by
  cases i <;> simp [Instr.stream] at hi <;> cases h <;> exact ⟨_, rfl, rfl⟩

end Sys2Proof.Machine
end

