-- ==== Sys2Proof/Laws/PerInstr.lean ====
section
/-! SUPPORT. A family of statements for all instructions: each one's encoding is a word of its row of spec/opcode_table.json
(spec/30_encoding.md R73). -/

namespace Sys2Proof.Laws.TableRow

/-- The word of an encoding as the table numbers it: the first received byte in the high byte (R73). -/
def codeWord : List Byte → Nat
  | [a, b] => a.toNat * 256 + b.toNat
  | [b] => b.toNat
  | _ => 0

/-- Width in bits, `mask` and `match` of an instruction's row in the table. -/
def row : Instr → Nat × Nat × Nat
  | .setContinuousMode _ => (16, 0xfffc, 0x4330)
  | .setBurstMode _ => (16, 0xfffc, 0x4230)
  | .setRunStateStop => (16, 0xffff, 0x5230)
  | .setRunStateRun => (16, 0xffff, 0x5231)
  | .setRunStateSingle => (16, 0xffff, 0x5232)
  | .setTriggerModePositive => (16, 0xffff, 0x5450)
  | .setTriggerModeNegative => (16, 0xffff, 0x544e)
  | .setTriggerModeFree => (16, 0xffff, 0x5446)
  | .setAuxOutput _ => (16, 0xfffe, 0x4730)
  | .setChannel _ => (16, 0xfffc, 0x4130)
  | .sampleHi _ => (8, 0xe0, 0x00)
  | .burstMid _ => (8, 0xe0, 0x20)
  | .burstLast _ => (8, 0xe0, 0x40)
  | .contMid _ => (8, 0xe0, 0x60)
  | .contLast _ => (8, 0xe0, 0xa0)
  | .discard => (8, 0xff, 0xc0)

/-- The encoding has the row's width and matches its mask. -/
def Statement (i : Instr) : Prop :=
  8 * (encode i).length = (row i).1 ∧ codeWord (encode i) &&& (row i).2.1 = (row i).2.2

theorem setContinuousMode : ∀ d : BitVec 2, Statement (.setContinuousMode d) := by unfold Statement; decide
theorem setBurstMode : ∀ d : BitVec 2, Statement (.setBurstMode d) := by unfold Statement; decide
theorem setRunStateStop : Statement .setRunStateStop := by unfold Statement; decide
theorem setRunStateRun : Statement .setRunStateRun := by unfold Statement; decide
theorem setRunStateSingle : Statement .setRunStateSingle := by unfold Statement; decide
theorem setTriggerModePositive : Statement .setTriggerModePositive := by unfold Statement; decide
theorem setTriggerModeNegative : Statement .setTriggerModeNegative := by unfold Statement; decide
theorem setTriggerModeFree : Statement .setTriggerModeFree := by unfold Statement; decide
theorem setAuxOutput : ∀ d : BitVec 1, Statement (.setAuxOutput d) := by unfold Statement; decide
theorem setChannel : ∀ d : BitVec 2, Statement (.setChannel d) := by unfold Statement; decide
theorem sampleHi : ∀ p : BitVec 5, Statement (.sampleHi p) := by unfold Statement; decide
theorem burstMid : ∀ p : BitVec 5, Statement (.burstMid p) := by unfold Statement; decide
theorem burstLast : ∀ p : BitVec 5, Statement (.burstLast p) := by unfold Statement; decide
theorem contMid : ∀ p : BitVec 5, Statement (.contMid p) := by unfold Statement; decide
theorem contLast : ∀ p : BitVec 5, Statement (.contLast p) := by unfold Statement; decide
theorem discard : Statement .discard := by unfold Statement; decide

end Sys2Proof.Laws.TableRow
end

