-- ==== Sys2Proof/Laws/Run.lean ====
section
/-! SUPPORT. Runs of several steps, taken apart. -/

namespace Sys2Proof.Machine

@[simp] theorem runSteps_zero (s : State) : runSteps 0 s = .next s := rfl

/-- A step of the CORE first, when no turn of the environment comes before it. -/
theorem runSteps_next {s t : State} (k : Nat) (hs : s.schedule = []) (h : coreStep s = .next t) :
    runSteps (k + 1) s = runSteps k t := by
  simp only [runSteps, step, hs, h]

theorem runSteps_fault {s : State} {f : Fault} (k : Nat) (hs : s.schedule = []) (h : coreStep s = .fault f) :
    runSteps (k + 1) s = .fault f := by
  simp only [runSteps, step, hs, h]

/-- A run in two parts. -/
theorem runSteps_add {s t : State} (a b : Nat) (h : runSteps a s = .next t) : runSteps (a + b) s = runSteps b t := by
  induction a generalizing s with
  | zero =>
    cases h
    rw [Nat.zero_add]
  | succ a ih =>
    rw [Nat.succ_add]
    cases hst : step s <;> simp only [runSteps, hst] at h ⊢
    · exact ih h
    · cases h
    · cases h

end Sys2Proof.Machine
end

