-- ==== Sys2Proof/Laws/Sequencer.lean ====
section
/-! SUPPORT. Said once: everything a step can do, with the state it answers. Invariants are derived from these cases. -/

namespace Sys2Proof.Machine

/-- A conversion made: one draw taken, one request recorded (R82). -/
def converted (s : State) (draws : List Sample) : State :=
  { s with adcDraws := draws, adcLog := s.adcLog ++ [{ channel := s.channel, rate := s.adcRate }] }

/-- Everything a step of the CORE can do. -/
inductive CoreCase (s : State) : State → Prop where
  | push (b : Byte) (held : List Byte) (hh : s.txHeld = b :: held) (hr : s.txReady = true) :
      CoreCase s (retire { s with tx := s.tx ++ [b], txHeld := held })
  | issue (i : Instr) (u : State) (hh : s.txHeld = []) (hf : fetched s = some i) (hx : exec i (consumed s) = .next u) :
      CoreCase s (retire u)
  | endDrain (hh : s.txHeld = []) (hp : s.phase = .drain) (hrx : s.rx = []) : CoreCase s (enter .poll s)
  | store (b : Byte) (rest : List Byte) (hh : s.txHeld = []) (hp : s.phase = .drain) (hrx : s.rx = b :: rest)
      (hb : b ≠ newline) (hl : s.lineLen < Config.lineMax) :
      CoreCase s { s with
        rx := rest
        line := Memory.write s.line s.lineLen b
        lineLen := if s.lineLen + 1 = Config.lineMax then 0 else s.lineLen + 1 }
  | ignore (r : Reject) (rest : List Byte) (hh : s.txHeld = []) (hp : s.phase = .drain) (hrx : s.rx = newline :: rest)
      (hd : decodeLine (lineContent s) = .reject r) : CoreCase s { s with rx := rest, lineLen := 0 }
  | poll (hh : s.txHeld = []) (hp : s.phase = .poll) : CoreCase s (pollStep s)
  | waitFree (after : Phase) (hh : s.txHeld = []) (hp : s.phase = .bTrig ∧ after = .bFill ∨ s.phase = .cTrig ∧ after = .cRead)
      (hm : s.trigMode = .free) : CoreCase s (endWait .satisfied after s)
  | waitBegin (hh : s.txHeld = []) (hp : s.phase = .bTrig ∨ s.phase = .cTrig) (hm : s.trigMode ≠ .free)
      (hmi : s.micro = .start) : CoreCase s (beginWait s)
  | waitMiss (v : Sample) (draws : List Sample) (hh : s.txHeld = []) (hp : s.phase = .bTrig ∨ s.phase = .cTrig)
      (hm : s.trigMode ≠ .free) (hmi : s.micro ≠ .start) (hc : s.retryCnt < s.params.retryLimit)
      (hd : s.adcDraws = v :: draws) (he : edgeFires s.trigMode s.trigLevel s.trigCurr v = false) :
      CoreCase s (shiftSample v (converted s draws))
  | waitHit (after : Phase) (v : Sample) (draws : List Sample) (hh : s.txHeld = [])
      (hp : s.phase = .bTrig ∧ after = .bFill ∨ s.phase = .cTrig ∧ after = .cRead)
      (hm : s.trigMode ≠ .free) (hmi : s.micro ≠ .start) (hc : s.retryCnt < s.params.retryLimit)
      (hd : s.adcDraws = v :: draws) (he : edgeFires s.trigMode s.trigLevel s.trigCurr v = true) :
      CoreCase s (endWait .satisfied after (shiftSample v (converted s draws)))
  | waitTimeout (after : Phase) (hh : s.txHeld = [])
      (hp : s.phase = .bTrig ∧ after = .bFill ∨ s.phase = .cTrig ∧ after = .cRead)
      (hm : s.trigMode ≠ .free) (hmi : s.micro ≠ .start) (hc : s.params.retryLimit ≤ s.retryCnt) :
      CoreCase s (endWait .timedOut after s)
  | fillBegin (hh : s.txHeld = []) (hp : s.phase = .bFill) (hmi : s.micro = .start) :
      CoreCase s { s with wrPtr := 0, micro := .body }
  | fillEntry (v : Sample) (draws : List Sample) (hh : s.txHeld = []) (hp : s.phase = .bFill) (hmi : s.micro ≠ .start)
      (hw : s.wrPtr < s.burstLength) (hn : s.wrPtr < s.params.nframe) (hd : s.adcDraws = v :: draws) :
      CoreCase s { converted s draws with buf := Memory.write s.buf s.wrPtr v, wrPtr := s.wrPtr + 1 }
  | fillEnd (hh : s.txHeld = []) (hp : s.phase = .bFill) (hmi : s.micro ≠ .start) (hw : s.burstLength ≤ s.wrPtr) :
      CoreCase s (endFill s)
  | advance (v : Sample) (draws : List Sample) (hh : s.txHeld = []) (hp : s.phase = .cRead) (hd : s.adcDraws = v :: draws) :
      CoreCase s (enter (if s.runState = .stop then .drain else .cXmit)
        { converted s draws with buf := Memory.write s.buf 0 v, wrPtr := 1 })
  | readOutBegin (hh : s.txHeld = []) (hp : s.phase = .bXmit) (hmi : s.micro = .start) :
      CoreCase s { s with rdPtr := 0, micro := .body }
  | readOutEnd (hh : s.txHeld = []) (hp : s.phase = .bXmit) (hmi : s.micro ≠ .start) (hf : fetched s = none)
      (hn : s.rdPtr < s.params.nframe) : CoreCase s (endFrame s)

theorem fetched_cXmit {s : State} (hp : s.phase = .cXmit) : fetched s ≠ none := by
  unfold fetched fetchedContByte
  rw [hp]
  dsimp only
  split <;> simp

/-- In DRAIN a line that is no command is what is left when nothing is fetched at a newline. -/
theorem fetched_drain {s : State} {rest : List Byte} (hp : s.phase = .drain) (hrx : s.rx = newline :: rest) :
    fetched s = (decodeLine (lineContent s)).instr? := by
  simp [fetched, fetchedCommand, hp, hrx]

theorem waitStep_case {s t : State} (after : Phase) (hh : s.txHeld = [])
    (hp : s.phase = .bTrig ∧ after = .bFill ∨ s.phase = .cTrig ∧ after = .cRead) (h : waitStep after s = .next t) :
    CoreCase s t := by
  have hp' : s.phase = .bTrig ∨ s.phase = .cTrig := by rcases hp with h | h <;> simp [h.1]
  rcases waitStep_next h with ⟨hm, rfl⟩ | ⟨hm, hmi, rfl⟩ | ⟨hm, hmi, h⟩
  · exact .waitFree after hh hp hm
  · exact .waitBegin hh hp' hm hmi
  · rcases waitIteration_next h with ⟨hc, v, draws, hd, ⟨he, rfl⟩ | ⟨he, rfl⟩⟩ | ⟨hc, rfl⟩
    · exact .waitHit after v draws hh hp hm hmi hc hd he
    · exact .waitMiss v draws hh hp' hm hmi hc hd he
    · exact .waitTimeout after hh hp hm hmi hc

theorem drainStep_case {s t : State} (hh : s.txHeld = []) (hp : s.phase = .drain) (hf : fetched s = none)
    (h : drainStep s = .next t) : CoreCase s t := by
  unfold drainStep at h
  split at h
  · cases h
    exact .endDrain hh hp ‹_›
  · rename_i b rest hrx
    dsimp only at h
    split at h
    · rename_i hb
      subst hb
      rw [fetched_drain hp hrx] at hf
      split at h
      · rename_i i hd
        rw [show lineContent { s with rx := rest } = lineContent s from rfl] at hd
        simp [hd, Decoded.instr?] at hf
      · cases h
        rw [ignoreLine_eq]
        exact .ignore _ rest hh hp hrx ‹_›
    · obtain ⟨hl, rfl⟩ := appendByte_next h
      exact .store b rest hh hp hrx ‹_› hl

/-- One inversion for the CORE's step. -/
theorem coreStep_case {s t : State} (h : coreStep s = .next t) : CoreCase s t := by
  unfold coreStep at h
  split at h
  · unfold completePush at h
    split at h
    · cases h
      exact .push _ _ ‹_› ‹_›
    · cases h
  · rename_i hh
    split at h
    · obtain ⟨u, hx, rfl⟩ := issue_next h
      exact .issue _ u hh ‹_› hx
    · rename_i hf
      unfold internalStep at h
      split at h
      · exact drainStep_case hh ‹_› hf h
      · cases h
        exact .poll hh ‹_›
      · exact waitStep_case .bFill hh (.inl ⟨‹_›, rfl⟩) h
      · rcases fillStep_next h with ⟨hmi, rfl⟩ | ⟨hmi, hw, hn, v, draws, hd, rfl⟩ | ⟨hmi, hw, rfl⟩
        · exact .fillBegin hh ‹_› hmi
        · exact .fillEntry v draws hh ‹_› hmi hw hn hd
        · exact .fillEnd hh ‹_› hmi hw
      · rcases readOutStep_next h with ⟨hmi, rfl⟩ | ⟨hmi, hn, rfl⟩
        · exact .readOutBegin hh ‹_› hmi
        · exact .readOutEnd hh ‹_› hmi hf hn
      · exact waitStep_case .cRead hh (.inr ⟨‹_›, rfl⟩) h
      · obtain ⟨v, draws, hd, rfl⟩ := advanceOne_next h
        have := CoreCase.advance v draws hh ‹_› hd
        split <;> simp_all [converted]
      · exact absurd hf (fetched_cXmit ‹_›)

/-- Everything a step can do: the CORE's step on the CORE's turn, or one act of the environment. -/
theorem step_case {s t : State} (h : step s = .next t) :
    (s.schedule = [] ∧ CoreCase s t) ∨ ∃ turn rest, s.schedule = turn :: rest ∧
      let u := { s with schedule := rest }
      (turn = .core ∧ CoreCase u t ∨ (∃ b, turn = .hostSends b ∧ t = hostSends b u) ∨
        turn = .tickArrives ∧ t = tickArrives u ∨ (∃ r, turn = .transport r ∧ t = transportReady r u) ∨
        turn = .powerOn ∧ t = powerOn u) := by
  unfold step at h
  split at h
  · exact .inl ⟨‹_›, coreStep_case h⟩
  · rename_i turn rest hs
    refine .inr ⟨turn, rest, hs, ?_⟩
    cases turn with
    | core => exact .inl ⟨rfl, coreStep_case h⟩
    | hostSends b => cases h; exact .inr (.inl ⟨b, rfl, rfl⟩)
    | tickArrives => cases h; exact .inr (.inr (.inl ⟨rfl, rfl⟩))
    | transport r => cases h; exact .inr (.inr (.inr (.inl ⟨r, rfl, rfl⟩)))
    | powerOn => cases h; exact .inr (.inr (.inr (.inr ⟨rfl, rfl⟩)))

end Sys2Proof.Machine
end

