-- ==== Sys2Proof/Laws/Wire.lean ====
section
/-! SUPPORT. A wire byte and its two fields (spec/30_encoding.md R67), and the two spellings of the encoder. -/

namespace Sys2Proof.Machine

theorem wire_getLsbD (f : BitVec 3) (p : BitVec 5) (i : Nat) :
    (wire f p).getLsbD i = if i < 5 then p.getLsbD i else f.getLsbD (i - 5) := by
  rw [wire, BitVec.getLsbD_append]

@[simp] theorem wireFlag_wire (f : BitVec 3) (p : BitVec 5) : wireFlag (wire f p) = f := by
  apply BitVec.eq_of_getLsbD_eq
  intro i hi
  rw [wireFlag, BitVec.getLsbD_extractLsb', wire_getLsbD]
  simp [hi]

@[simp] theorem wirePayload_wire (f : BitVec 3) (p : BitVec 5) : wirePayload (wire f p) = p := by
  apply BitVec.eq_of_getLsbD_eq
  intro i hi
  rw [wirePayload, BitVec.getLsbD_extractLsb', wire_getLsbD]
  simp [hi]

/-- A byte is its flag and its payload. -/
theorem wire_of_fields (b : Byte) : wire (wireFlag b) (wirePayload b) = b := by
  apply BitVec.eq_of_getLsbD_eq
  intro i hi
  rw [wire_getLsbD, wireFlag, wirePayload, BitVec.getLsbD_extractLsb', BitVec.getLsbD_extractLsb']
  by_cases h : i < 5
  · simp [h]
  · simp [h, show i - 5 < 3 by omega, show 5 + (i - 5) = i by omega]

/-- Byte 1 as concatenated fields and as the arithmetic of R142. -/
theorem wire_hi_eq_byte1 (v : Sample) : wire 0#3 (v.extractLsb' 5 5) = byte1 v := by
  apply BitVec.eq_of_getLsbD_eq
  intro i hi
  rw [wire_getLsbD]
  interval_cases i <;> simp [byte1]

/-- Byte 2 as concatenated fields and as the arithmetic of R143. -/
theorem wire_lo_eq_byte2 (v : Sample) (cont last : Bool) :
    wire (flagOf cont last) (v.extractLsb' 0 5) = byte2 v cont last := by
  apply BitVec.eq_of_getLsbD_eq
  intro i hi
  rw [wire_getLsbD]
  cases cont <;> cases last <;> interval_cases i <;> simp [byte2, flagOf, maskOf]

end Sys2Proof.Machine
end

