-- ==== Sys2Proof/Tests/Slice0.lean ====
section
/-! SUPPORT. The model's own tests. Expected values come from spec/95_test_vectors.md (the vector's name stands in the docstring)
or from the rule named; the witnesses at the end meet the hypotheses of the obligations. -/

namespace Sys2Proof.Tests
open Sys2Proof Sys2Proof.Machine

/-! ### Well-formedness: what each check refuses -/

/-- R60, R65: sixteen content bytes. -/
theorem test_length_refused : WellFormed.lengthOk (List.replicate 16 0x5a#8) = false := by decide
/-- R60: a newline inside the content. -/
theorem test_terminator_refused : WellFormed.noTerminator [0x43#8, 0x30#8, 0x0a#8] = false := by decide
/-- R61: a small letter. -/
theorem test_letter_refused : WellFormed.letterDefined 0x63#8 = false := by decide
/-- R62: `C4`. -/
theorem test_argument_refused : WellFormed.argumentInDomain 0x43#8 0x34#8 = false := by decide
/-- R64 (c): a lone `B`. -/
theorem test_short_line_refused : WellFormed.letterAndArgument [0x42#8] = false := by decide
/-- R64: `R3`. -/
theorem test_line_refused : wellFormed .rx [0x52#8, 0x33#8] = false := by decide
/-- R71: flags 100 and 111, and a 110 with a payload. -/
theorem test_wire_byte_refused :
    [0x80#8, 0xff#8, 0xc1#8].map (fun b => wellFormed .tx [b]) = [false, false, false] := by decide
/-- R67: a wire form is one byte. -/
theorem test_two_wire_bytes_refused : wellFormed .tx [0x15#8, 0x2b#8] = false := by decide

/-! ### Decoding: words written out from R61 to R63 and R68 -/

theorem test_decode_C : decodeTableWord 16 0b0100001100110011 = some (.setContinuousMode 3#2) := by decide
theorem test_decode_B : decodeTableWord 16 0b0100001000110001 = some (.setBurstMode 1#2) := by decide
theorem test_decode_R0 : decodeTableWord 16 0b0101001000110000 = some .setRunStateStop := by decide
theorem test_decode_R1 : decodeTableWord 16 0b0101001000110001 = some .setRunStateRun := by decide
theorem test_decode_R2 : decodeTableWord 16 0b0101001000110010 = some .setRunStateSingle := by decide
theorem test_decode_TP : decodeTableWord 16 0b0101010001010000 = some .setTriggerModePositive := by decide
theorem test_decode_TN : decodeTableWord 16 0b0101010001001110 = some .setTriggerModeNegative := by decide
theorem test_decode_TF : decodeTableWord 16 0b0101010001000110 = some .setTriggerModeFree := by decide
theorem test_decode_G : decodeTableWord 16 0b0100011100110001 = some (.setAuxOutput 1#1) := by decide
theorem test_decode_A : decodeTableWord 16 0b0100000100110010 = some (.setChannel 2#2) := by decide
theorem test_decode_sampleHi : decodeTableWord 8 0b00010101 = some (.sampleHi 21#5) := by decide
theorem test_decode_burstMid : decodeTableWord 8 0b00101011 = some (.burstMid 11#5) := by decide
theorem test_decode_burstLast : decodeTableWord 8 0b01001011 = some (.burstLast 11#5) := by decide
theorem test_decode_contMid : decodeTableWord 8 0b01101011 = some (.contMid 11#5) := by decide
theorem test_decode_contLast : decodeTableWord 8 0b10101011 = some (.contLast 11#5) := by decide
theorem test_decode_discard : decodeTableWord 8 0b11000000 = some .discard := by decide
/-- L18, L19, L20, L21: what is ignored, and a carriage return after the argument. -/
theorem test_lines :
    [[0x43#8, 0x34#8], [0x5a#8, 0x30#8], [0x42#8], [], [0x52#8, 0x31#8, 0x0d#8]].map decodeLine =
      [.reject .unrecognizedArgument, .reject .unrecognizedCommand, .reject .unrecognizedArgument, .reject .emptyLine,
        .run .setRunStateRun] := by decide

/-! ### One step -/

/-- Three entries, three reads, level 512. -/
def params : Params := { lastEntry := 2, retryLimit := 3, trigLevel := 512#10, bootEmitsDiscard := false }

/-- A small machine right after reset. -/
def idle : State := State.resetOf params

/-- The machine in Continuous mode, one sample of its frame sent. -/
def continuousIdle : State := { idle with mode := .continuous, burstLength := 1, frameCount := 1 }

/-- What one field of the next state is, if there is a next state. -/
def field {α : Type} (f : State → α) : Result → Option α
  | .next t => some (f t)
  | .fault _ => none
  | .refused _ => none

/-- What is seen of the state after the placed word. -/
def placed {α : Type} (f : State → α) (nbits w : Nat) (s : State) : Option α := field f (step (s.withFetchWord nbits w))

/-- L4. -/
theorem test_C3 : placed (fun t => (t.mode, t.burstLength, t.tickRate, t.tx)) 16 0x4333 idle =
    some (.continuous, 1, 480, [0xc0#8]) := by decide
/-- L4. -/
theorem test_C3_rate : placed (fun t => (t.rateIdx, adcRatePort t)) 16 0x4333 idle = some (3#2, 96000) := by decide
/-- L5, W1. -/
theorem test_B0 : placed (fun t => (t.mode, t.burstLength, t.frameCount, t.tx)) 16 0x4230 continuousIdle =
    some (.burst, 3, 0, [0xc0#8]) := by decide
/-- L5. -/
theorem test_B0_rate : placed (fun t => (t.rateIdx, adcRatePort t, tickRatePort t)) 16 0x4230 continuousIdle =
    some (0#2, 9600, 8) := by decide
/-- L9, and the count stays (R162). -/
theorem test_R0 : placed (fun t => (t.runState, t.frameCount, t.tx)) 16 0x5230 continuousIdle = some (.stop, 1, []) := by
  decide
/-- L10. -/
theorem test_R1 : placed (fun t => (t.runState, t.frameCount, t.tx)) 16 0x5231 continuousIdle = some (.run, 0, []) := by
  decide
/-- L11. -/
theorem test_R2 : placed (fun t => (t.runState, t.frameCount, t.tx)) 16 0x5232 continuousIdle =
    some (.single, 0, [0xc0#8]) := by decide
/-- L12. -/
theorem test_TP : placed (fun t => (t.trigMode, t.tx)) 16 0x5450 idle = some (.risingEdge, []) := by decide
/-- L13. -/
theorem test_TN : placed (fun t => (t.trigMode, t.tx)) 16 0x544e idle = some (.fallingEdge, []) := by decide
/-- L14. -/
theorem test_TF : placed (fun t => (t.trigMode, t.tx)) 16 0x5446 { idle with trigMode := .risingEdge } = some (.free, []) := by
  decide
/-- L16. -/
theorem test_G1 : placed (fun t => (auxPinPort t, t.tx)) 16 0x4731 idle = some (1#1, []) := by decide
/-- L17. -/
theorem test_A3 : placed (fun t => (adcChannelPort t, t.tx)) 16 0x4133 idle = some (3#2, []) := by decide
/-- 2.2, sample 683. -/
theorem test_sampleHi : placed (fun t => (t.tx, t.micro)) 8 0x15 idle = some ([0x15#8], .low) := by decide
/-- R124: the pointer advances after Byte 2. -/
theorem test_burstMid : placed (fun t => (t.tx, t.rdPtr, t.phase)) 8 0x2b idle = some ([0x2b#8], 1, .bXmit) := by decide
/-- C3: 0x4b, and the frame ends. -/
theorem test_burstLast : placed (fun t => (t.tx, t.rdPtr, t.phase)) 8 0x4b idle = some ([0x4b#8], 3, .drain) := by decide
/-- K7. -/
theorem test_contMid : placed (fun t => (t.tx, t.frameCount, t.phase)) 8 0x6b idle = some ([0x6b#8], 1, .drain) := by decide
/-- K9. -/
theorem test_contLast : placed (fun t => (t.tx, t.frameCount, t.runState)) 8 0xab { idle with runState := .single } =
    some ([0xab#8], 0, .stop) := by decide
/-- R145. -/
theorem test_discard : placed (fun t => (t.tx, t.phase)) 8 0xc0 idle = some ([0xc0#8], .drain) := by decide

/-- What whole waits answer: outcome, reads, history. -/
def waitAnswer (m : TriggerMode) (limit : Nat) (draws : List Sample) :
    Option (TriggerOutcome × Nat × Sample × Sample) :=
  (tedWait m 512#10 limit draws).map fun r => (r.outcome, r.reads, r.prev, r.curr)

/-- T3. -/
theorem test_T3 : waitAnswer .risingEdge 4 [600#10, 600#10, 400#10, 0#10] = some (.satisfied, 3, 600#10, 400#10) := by decide
/-- T8: `prev == level` fails the strict compare. -/
theorem test_T8 : waitAnswer .risingEdge 4 [512#10, 400#10, 400#10, 400#10] = some (.timedOut, 4, 400#10, 400#10) := by decide
/-- T16: the first sample never fires. -/
theorem test_T16 : waitAnswer .risingEdge 1 [0#10] = some (.timedOut, 1, 512#10, 0#10) := by decide
/-- T18: `curr == level` satisfies `>=`. -/
theorem test_T18 : waitAnswer .fallingEdge 4 [400#10, 512#10, 600#10, 0#10] = some (.satisfied, 2, 400#10, 512#10) := by decide

/-- 2.2: the pairs of 683 and 1022. -/
theorem test_encoder :
    [encodeSample 683#10 false false, encodeSample 683#10 false true, encodeSample 1022#10 true false,
      encodeSample 1022#10 true true] =
      [(0x15#8, 0x2b#8), (0x15#8, 0x4b#8), (0x1f#8, 0x7e#8), (0x1f#8, 0xbe#8)] := by decide

/-- K5 with three entries: a satisfied Single frame is sent and the run stops. -/
theorem test_K5 :
    (tickBurst { idle with
      runState := .single, trigMode := .risingEdge,
      adcDraws := [600#10, 600#10, 400#10, 700#10, 800#10, 40#10] }).map (fun t => (t.tx, t.runState, t.adcLog.length)) =
      some ([0x15#8, 0x3c#8, 0x19#8, 0x20#8, 0x01#8, 0x48#8], .stop, 6) := by decide
/-- K11: in Continuous mode a timed-out wait is ignored. -/
theorem test_K11 :
    (tickContinuous { continuousIdle with
      frameCount := 0, trigMode := .risingEdge, adcDraws := [1#10, 2#10, 3#10, 300#10] }).map
        (fun t => (t.tx, t.frameCount, t.trigOutcome)) = some ([0x09#8, 0x6c#8], 1, .timedOut) := by decide

/-- R34 (f) after `C0`, with both pointers where a whole fill and read-out leave them (R122, R124; log 12). -/
theorem test_pointers_within_burst_length :
    field (fun t => (decide (t.wrPtr ≤ t.burstLength), decide (t.rdPtr ≤ t.burstLength)))
      (exec (.setContinuousMode 0#2) { idle with wrPtr := 3, rdPtr := 3 }) = some (true, true) := by decide

/-! ### Witnesses: states that meet the hypotheses of the obligations -/

theorem witness_transport_free : TransportFree idle := ⟨rfl, rfl⟩

/-- A frame being read out in a good state: entry 0 is sent, Byte 1 of entry 1 is sent, Byte 2 is next. -/
def sending : State := { idle with
  phase := .bXmit, micro := .low, trigOutcome := .satisfied, runState := .single, buf := [(0, 683#10), (1, 5#10)],
  wrPtr := 3, rdPtr := 1, tx := [0x15#8, 0x2b#8, 0x00#8] }

theorem witness_good_state : GoodState sending where
  registers := by constructor <;> decide
  stores := by constructor <;> decide
  phases := by constructor <;> decide
  wire := ⟨by decide, .inl rfl⟩

/-- The same, with the byte held back by a transport that is not ready. -/
def stuck : State := { sending with txReady := false, micro := .body, txHeld := [0x00#8], tx := [0x15#8, 0x2b#8] }

theorem witness_good_stuck_state : GoodState stuck where
  registers := by constructor <;> decide
  stores := by constructor <;> decide
  phases := by constructor <;> decide
  wire := ⟨by decide, .inr ⟨0x00#8, rfl, by decide, by decide⟩⟩

/-- `LineDecodesExactlyItsEncoding`: both sides hold of `G1` with a tail, neither of `G2`. -/
theorem witness_line_decodes :
    decodeLine [0x47#8, 0x31#8, 0x5a#8] = .run (.setAuxOutput 1#1) ∧ decodeLine [0x47#8, 0x32#8] ≠ .run (.setAuxOutput 0#1) :=
  by decide

theorem witness_ignored_lines :
    0x63#8 ∉ [0x43#8, 0x42#8, 0x52#8, 0x54#8, 0x47#8, 0x41#8] ∧ 0x41#8 ∈ [0x43#8, 0x42#8, 0x52#8, 0x54#8, 0x47#8, 0x41#8] ∧
    ∀ i, encode i ≠ [0x43#8, 0x34#8] :=
  ⟨by decide, by decide, fun i => by cases i <;> (try rename_i d; revert d) <;> decide⟩

/-- A dispatched line of 15 bytes and a one-byte line that is not. -/
theorem witness_well_formed_lines :
    (0x42#8 :: 0x31#8 :: List.replicate 13 0x5a#8).length < 16 ∧
    0x0a#8 ∉ 0x42#8 :: 0x31#8 :: List.replicate 13 0x5a#8 ∧
    wellFormed .rx (0x42#8 :: 0x31#8 :: List.replicate 13 0x5a#8) = true ∧
    wellFormed .rx [0x42#8] = false := by decide

/-- Both ends of each argument domain are in it, their neighbours are not. -/
theorem witness_arguments :
    ¬(0x30 ≤ (0x2f#8).toNat ∧ (0x2f#8).toNat ≤ 0x33) ∧ ¬(0x30 ≤ (0x34#8).toNat ∧ (0x34#8).toNat ≤ 0x33) ∧
    ¬(0x30 ≤ (0x33#8).toNat ∧ (0x33#8).toNat ≤ 0x32) ∧ ¬(0x30 ≤ (0x32#8).toNat ∧ (0x32#8).toNat ≤ 0x31) ∧
    0x58#8 ∉ [0x50#8, 0x4e#8, 0x46#8] := by decide

theorem witness_rates :
    ((0#2, 24) : BitVec 2 × Nat) ∈ [(0#2, 24), (1#2, 48), (2#2, 96), (3#2, 480)] ∧
    ((3#2, 192000) : BitVec 2 × Nat) ∈ [(0#2, 9600), (1#2, 48000), (2#2, 96000), (3#2, 192000)] := by decide

theorem witness_masks : ((.contLast ((1023#10).extractLsb' 0 5), 0xa0#8) : Instr × Byte) ∈
    [(.burstMid ((1023#10).extractLsb' 0 5), 0x20#8), (.burstLast ((1023#10).extractLsb' 0 5), 0x40#8),
      (.contMid ((1023#10).extractLsb' 0 5), 0x60#8), (.contLast ((1023#10).extractLsb' 0 5), 0xa0#8)] := by decide

/-- `BlockedPushLeavesRegistersWritten`. -/
theorem witness_blocked_push :
    TransportFree idle ∧ exec .discard idle = .next { idle with tx := [0xc0#8] } := ⟨⟨rfl, rfl⟩, rfl⟩

/-- `ScheduleDecidesWhoMoves`, `PowerOnRestoresReset`: each kind of turn. -/
theorem witness_turns :
    idle.schedule = [] ∧ ∀ t : Turn, ({ idle with schedule := [t] } : State).schedule = t :: [] := ⟨rfl, fun _ => rfl⟩

/-- A machine with the line `R2` accumulated and its newline next. -/
def lineReady : State := { idle with line := [(0, 0x52#8), (1, 0x32#8)], lineLen := 2, rx := [0x0a#8, 0x41#8] }

/-- `StepRunsTheDecodedCommand`, `RunStateChangesOnlyByCommandOrFrameEnd` (its command clause). -/
theorem witness_decoded_command :
    lineReady.schedule = [] ∧ lineReady.txHeld = [] ∧ lineReady.phase = .drain ∧ lineReady.rx = 0x0a#8 :: [0x41#8] ∧
    decodeLine (lineContent lineReady) = .run .setRunStateSingle ∧
    field (·.runState) (step lineReady) = some .single := by decide

/-- `StepRunsTheFetchedWireByte`, and the frame-end clause of `RunStateChangesOnlyByCommandOrFrameEnd` at the last entry. -/
theorem witness_fetched_wire_byte :
    sending.schedule = [] ∧ sending.txHeld = [] ∧ transmits sending.phase = true ∧
    fetched sending = some (.burstMid 5#5) ∧
    field (fun t => (t.runState, t.phase)) (step { sending with rdPtr := 2 }) = some (.stop, .drain) := by decide

/-- `PlacedWordIsPerformedNext`: a command word and a wire word. -/
theorem witness_placed_word :
    Memory.wf idle.buf ∧ Memory.wf idle.line ∧ decodeTableWord 16 0x4130 = some (.setChannel 0#2) ∧
    decodeTableWord 8 0x5f = some (.burstLast 31#5) := by decide

/-- `ReceivedCommandLineIsPerformed`: the whole line `T P newline` is waiting. -/
theorem witness_received_line :
    (Instr.stream .setTriggerModePositive = .rx) ∧ Memory.wf idle.line ∧ idle.lineLen = 0 ∧
    ({ idle with rx := [0x54#8, 0x50#8, 0x0a#8] } : State).rx = commandLine .setTriggerModePositive ++ [] := by decide

/-- `AnyOtherByteIsAppended`: into an empty buffer and as the sixteenth content byte. -/
theorem witness_appended_byte :
    (0x0d#8 ≠ 0x0a#8) ∧ idle.lineLen < 16 ∧ ({ idle with lineLen := 15 } : State).lineLen < 16 ∧ Memory.wf idle.line ∧
    ({ idle with rx := [0x0d#8] } : State).rx = 0x0d#8 :: [] := by decide

/-- `IgnoredLineChangesNothing`: a bare newline, and `R` alone. -/
theorem witness_ignored_line :
    decodeLine (lineContent { idle with rx := [0x0a#8] }) = .reject .emptyLine ∧
    decodeLine (lineContent { lineReady with lineLen := 1 }) = .reject .unrecognizedArgument ∧
    lineReady.rx = 0x0a#8 :: [0x41#8] := by decide

/-- `SixteenBytesOverflow`. -/
theorem witness_overflow :
    (List.replicate 16 0x5a#8).length = 16 ∧ 0x0a#8 ∉ List.replicate 16 0x5a#8 ∧
    ({ idle with rx := List.replicate 16 0x5a#8 } : State).rx = List.replicate 16 0x5a#8 ++ [] ∧ idle.lineLen = 0 := by decide

/-- `PollTakesTheTick`: the poll with and without a tick, in each mode and at count 0. -/
theorem witness_poll :
    [{ idle with phase := .poll }, { idle with phase := .poll, tickPending := true },
      { continuousIdle with phase := .poll, tickPending := true },
      { continuousIdle with phase := .poll, tickPending := true, frameCount := 0 }].map
        (fun s => field (fun t => (t.phase, t.tickPending)) (coreStep s)) =
      [some (.drain, false), some (.bTrig, false), some (.cRead, false), some (.cTrig, false)] := by decide

/-- A wait in its loop, 600 read last, one read made. -/
def waiting : State := { idle with
  phase := .bTrig, micro := .body, trigMode := .risingEdge, trigPrev := 512#10, trigCurr := 600#10, retryCnt := 1,
  adcDraws := [512#10, 7#10] }

/-- `FreeWaitReadsNothing`, `EdgeWaitBeginsAtTheLevel`, `EdgeIterationReadsThenCompares`: both waiting phases, both
polarities, a hit at the level itself, and no hit one above it. -/
theorem witness_edge_iteration :
    (Phase.bTrig, Phase.bFill) ∈ waitPhases ∧ (Phase.cTrig, Phase.cRead) ∈ waitPhases ∧ waiting.txHeld = [] ∧
    waiting.trigMode ≠ .free ∧ waiting.micro = .body ∧ waiting.retryCnt < waiting.params.retryLimit ∧
    waiting.adcDraws = 512#10 :: [7#10] ∧
    field (·.trigOutcome) (coreStep { waiting with trigMode := .free, micro := .start }) = some .satisfied ∧
    field (·.retryCnt) (coreStep { waiting with micro := .start }) = some 0 ∧
    field (·.phase) (coreStep waiting) = some .bFill ∧
    field (·.phase) (coreStep { waiting with adcDraws := [513#10] }) = some .bTrig ∧
    field (·.phase) (coreStep { waiting with phase := .cTrig, trigMode := .fallingEdge, trigCurr := 511#10 }) = some .cRead := by
  decide

/-- `ExhaustedBudgetTimesOut`: at the limit, and with RETRY_LIMIT 0. -/
theorem witness_exhausted_budget :
    ({ waiting with retryCnt := 3 } : State).retryCnt = waiting.params.retryLimit ∧
    ({ waiting with retryCnt := 0, params := { params with retryLimit := 0 } } : State).retryCnt = 0 ∧
    field (·.trigOutcome) (coreStep { waiting with retryCnt := 3 }) = some .timedOut := by decide

/-- A wait about to begin. -/
def waitStart : State := { waiting with micro := .start, retryCnt := 0 }

/-- `WholeWaitIsTheFirstHit`, first clause, at the least `k` that can hit. -/
theorem witness_first_hit :
    hitAt .risingEdge 512#10 [600#10, 512#10] 2 ∧ ∀ j, 1 ≤ j → j < 2 → ¬hitAt .risingEdge 512#10 [600#10, 512#10] j := by
  refine ⟨by simp [hitAt, sampleAt], fun j h1 h2 => ?_⟩
  obtain rfl : j = 1 := by omega
  simp [hitAt, sampleAt]

/-- Its second clause, at a budget of exactly the samples offered, and its third, one sample short. -/
theorem witness_no_hit :
    waitStart.micro = .start ∧ waitStart.schedule = [] ∧ waitStart.txHeld = [] ∧ waitStart.trigMode ≠ .free ∧
    waitStart.params.retryLimit = [1#10, 2#10, 3#10].length ∧ [1#10, 2#10].length < waitStart.params.retryLimit ∧
    ∀ j, 1 ≤ j → j ≤ 3 → ¬hitAt .risingEdge 512#10 [1#10, 2#10, 3#10] j := by
  refine ⟨rfl, rfl, rfl, by decide, rfl, by decide, fun j h1 h2 => ?_⟩
  obtain rfl | rfl | rfl : j = 1 ∨ j = 2 ∨ j = 3 := by omega
  all_goals simp [hitAt, sampleAt]

/-- `FirstSampleNeverFires`: a Satisfied wait, and budgets 0 and 1. -/
theorem witness_first_sample :
    (tedWait .fallingEdge 512#10 2 [511#10, 512#10]).map (fun r => (r.outcome, r.reads)) = some (.satisfied, 2) ∧
    0 ≤ ([] : List Sample).length ∧ 1 ≤ [600#10].length := by decide

/-- `MonotoneSignalsTimeOut`: a rising and a falling run across the level, and a constant one. -/
theorem witness_monotone :
    ([100#10, 512#10, 800#10].Pairwise (· ≤ ·) ∧ [800#10, 512#10, 100#10].Pairwise (· ≥ ·) ∧
      [512#10, 512#10, 512#10].Pairwise (· ≤ ·)) ∧
    waitAnswer .risingEdge 3 [100#10, 512#10, 800#10] = some (.timedOut, 3, 512#10, 800#10) ∧
    waitAnswer .fallingEdge 3 [800#10, 512#10, 100#10] = some (.timedOut, 3, 512#10, 100#10) := by decide

/-- A fill about to store its last entry. -/
def filling : State := { idle with
  phase := .bFill, micro := .body, trigOutcome := .satisfied, wrPtr := 2, buf := [(0, 683#10), (2, 9#10)],
  adcDraws := [40#10, 50#10, 60#10] }

/-- `FillStoresAtTheWritePointer`, `WholeFillHoldsTheDraws` (with exactly the samples the fill needs). -/
theorem witness_fill :
    filling.txHeld = [] ∧ filling.phase = .bFill ∧ filling.micro = .body ∧ filling.wrPtr < filling.burstLength ∧
    filling.burstLength ≤ filling.params.nframe ∧ filling.adcDraws = 40#10 :: [50#10, 60#10] ∧ Memory.wf filling.buf ∧
    filling.burstLength = filling.adcDraws.length ∧ ({ filling with micro := .start } : State).micro = .start := by decide

/-- `AdvanceOneKeepsOneLiveSample`: with run state Run and with Stop. -/
theorem witness_advance :
    [{ filling with phase := .cRead }, { filling with phase := .cRead, runState := .stop }].map
      (fun s => field (fun t => (t.phase, Memory.read t.buf 0, t.wrPtr)) (coreStep s)) =
      [some (.cXmit, 40#10, 1), some (.drain, 40#10, 1)] := by decide

/-- A read-out about to begin. -/
def readOutStart : State := { sending with micro := .start }

/-- `WholeReadOutSendsTheFrame`: three entries, and a store of one entry. -/
theorem witness_read_out :
    TransportFree readOutStart ∧ readOutStart.schedule = [] ∧ readOutStart.phase = .bXmit ∧ readOutStart.micro = .start ∧
    1 ≤ readOutStart.burstLength ∧ readOutStart.burstLength ≤ readOutStart.params.nframe ∧
    ({ readOutStart with burstLength := 1, params := { params with lastEntry := 0 } } : State).params.nframe = 1 :=
  ⟨⟨rfl, rfl⟩, by decide⟩

/-- `NonTerminalSampleCounts` one below NFRAME, `TerminalSampleEndsTheFrame` at it. -/
theorem witness_cont_samples :
    TransportFree { continuousIdle with phase := .cXmit, micro := .body, frameCount := 2 } ∧
    ({ continuousIdle with frameCount := 2 } : State).frameCount < continuousIdle.params.nframe ∧
    continuousIdle.params.nframe ≤ ({ continuousIdle with frameCount := 3 } : State).frameCount := ⟨⟨rfl, rfl⟩, by decide⟩

/-- `BurstTransitionRefinesTickBurst`: a transition that ends and one that stalls. -/
theorem witness_burst_transition :
    TransportFree { idle with phase := .bTrig } ∧ 1 ≤ idle.burstLength ∧ idle.burstLength ≤ idle.params.nframe ∧
    (tickBurst { idle with phase := .bTrig, adcDraws := [1#10, 2#10, 3#10] }).isSome = true ∧
    tickBurst { idle with phase := .bTrig, adcDraws := [1#10, 2#10] } = none := ⟨⟨rfl, rfl⟩, by decide⟩

/-- `ContinuousTransitionRefinesTickContinuous`: from CTRIG at count 0 and from CREAD above it, ended and stalled. -/
theorem witness_continuous_transition :
    TransportFree { continuousIdle with phase := .cRead } ∧
    (∀ s ∈ [{ continuousIdle with phase := .cRead, adcDraws := [1#10] },
      { continuousIdle with phase := .cTrig, frameCount := 0, adcDraws := [1#10] }],
      s.phase = (if s.frameCount = 0 then Phase.cTrig else .cRead) ∧ (tickContinuous s).isSome = true ∧
        tickContinuous { s with adcDraws := [] } = none) := ⟨⟨rfl, rfl⟩, by decide⟩

/-- `StopAcquiresButSendsNothing`. -/
theorem witness_stop :
    ((tickBurst { idle with runState := .stop, adcDraws := [9#10, 8#10, 7#10] }).map (fun t => (t.tx, t.adcLog.length)) =
      some ([], 3)) ∧
    (tickContinuous { continuousIdle with runState := .stop, adcDraws := [9#10] }).isSome = true := by decide

/-- `ContinuousFrameHasOneMoreSample`: NFRAME = 1, two ticks. -/
theorem witness_continuous_frame :
    let s : State := { continuousIdle with
      params := { params with lastEntry := 0 }, frameCount := 0, runState := .single, adcDraws := [683#10, 683#10] }
    s.frameCount = 0 ∧ s.runState ≠ .stop ∧
    (contTicks (s.params.nframe + 1) s).map (fun t => (t.tx, t.runState)) =
      some ([0x15#8, 0x6b#8, 0x15#8, 0xab#8], .stop) := by decide

/-- `HistoryIsLocalToOneWait`, `StaleEntriesAreNeverSent`. -/
theorem witness_locality :
    waitStart.trigMode ≠ .free ∧ waitStart.frameCount = 0 ∧ Memory.wf ([(0, 3#10), (2, 4#10)] : Memory 10) ∧
    ¬Memory.wf ([(2, 3#10), (0, 4#10)] : Memory 10) ∧ ¬Memory.wf ([(0, 0#10)] : Memory 10) := by decide

/-- A fill whose conversion is never answered. -/
def stalled : State := { idle with phase := .bFill, micro := .body, trigOutcome := .satisfied }

theorem witness_good_stalled_state : GoodState stalled where
  registers := by constructor <;> decide
  stores := by constructor <;> decide
  phases := by constructor <;> decide
  wire := ⟨by decide, .inl rfl⟩

/-- `StepKeepsTheInvariant`, `StepStopsExactlyWhenStuck`: a good state with a next state, and both stuck states. -/
theorem witness_good_steps :
    GoodState sending ∧ step sending = .next { sending with tx := [0x15#8, 0x2b#8, 0x00#8, 0x25#8], rdPtr := 2, micro := .body } ∧
    GoodState stuck ∧ coreMoves stuck ∧ step stuck = .fault .transportHang ∧
    GoodState stalled ∧ step stalled = .fault .hardwareStall :=
  ⟨witness_good_state, rfl, witness_good_stuck_state, .inl rfl, rfl, witness_good_stalled_state, rfl⟩

/-- `ModeChangesOnlyByCommand`, `SelectionsChangeOnlyByTheirCommand`, `StreamsMoveInOrder`: steps that change the mode, the
channel, the pin, the polarity, and a conversion. -/
theorem witness_changes :
    placed (fun t => decide (t.mode ≠ idle.mode)) 16 0x4330 idle = some true ∧
    placed (fun t => decide (t.channel ≠ idle.channel)) 16 0x4131 idle = some true ∧
    placed (fun t => decide (t.auxOut ≠ idle.auxOut)) 16 0x4731 idle = some true ∧
    placed (fun t => decide (t.trigMode ≠ idle.trigMode)) 16 0x544e idle = some true ∧
    field (fun t => t.adcLog) (step waiting) = some [{ channel := 0#2, rate := 48000 }] ∧
    (¬∃ rest, waiting.schedule = .powerOn :: rest) :=
  ⟨by decide, by decide, by decide, by decide, by decide, fun ⟨_, h⟩ => by cases h⟩

/-- `ArrivalsDoNotDisturbTheCore`: a waiting phase, and DRAIN with a byte left. -/
theorem witness_arrivals : waiting.phase ≠ .drain ∧ waiting.phase ≠ .poll ∧ lineReady.phase = .drain ∧ lineReady.rx ≠ [] := by
  decide

/-- `TicksCoalesce`: three ticks. -/
theorem witness_ticks : ({ idle with schedule := [.tickArrives, .tickArrives, .tickArrives] } : State).schedule =
    List.replicate (2 + 1) .tickArrives ++ [] := by decide

/-- `HeldByteWaitsForTheTransport`: held by a transport that is not ready, and by one that is. -/
theorem witness_held_byte :
    stuck.txHeld = [0x00#8] ∧ stuck.txReady = false ∧ ({ stuck with txReady := true } : State).txReady = true := by decide

/-- `PointersFitTheirWidth`: a width that holds NFRAME = 3. -/
theorem witness_pointer_width : GoodState sending ∧ sending.params.nframe < 2 ^ 2 ∧ ptrWidth sending.params = 2 :=
  ⟨witness_good_state, by decide⟩

end Sys2Proof.Tests
end

section
/-! PROOFS. The parameters of 00_scope.md: the pointers of the frame store against PTR_W (R5, D12). -/

namespace Sys2Proof.Machine

/-- PTR_W as R5 defines it: a width is at least PTR_W exactly when it holds NFRAME. -/
theorem ptrWidth_le_iff {p : Params} {w : Nat} : ptrWidth p ≤ w ↔ p.nframe < 2 ^ w :=
  Nat.log2_lt (Nat.succ_ne_zero p.lastEntry)

theorem nframe_lt_two_pow_ptrWidth (p : Params) : p.nframe < 2 ^ ptrWidth p :=
  ptrWidth_le_iff.mp le_rfl

namespace RegisterInv

/-- R34 (a): NFRAME in Burst mode, and 1 in Continuous mode, where NFRAME >= 1 (R5) bounds it. -/
theorem burstLength_le_nframe {s : State} (h : RegisterInv s) : s.burstLength ≤ s.params.nframe := by
  have hlen := h.burstLength
  cases hmode : s.mode <;> rw [hmode] at hlen
  case burst => exact hlen.le
  case continuous => exact hlen.trans_le (Nat.succ_pos s.params.lastEntry)

theorem wrPtr_le_nframe {s : State} (h : RegisterInv s) : s.wrPtr ≤ s.params.nframe :=
  h.wrPtr.trans h.burstLength_le_nframe

theorem rdPtr_le_nframe {s : State} (h : RegisterInv s) : s.rdPtr ≤ s.params.nframe :=
  h.rdPtr.trans h.burstLength_le_nframe

/-- Every pointer and counter of the frame store is at most its capacity (R16 to R19). -/
theorem pointers_le_nframe {s : State} (h : RegisterInv s) :
    ∀ n ∈ [s.wrPtr, s.rdPtr, s.burstLength, s.frameCount], n ≤ s.params.nframe := by
  simp only [List.forall_mem_cons, List.not_mem_nil, false_imp_iff, implies_true, and_true]
  exact ⟨h.wrPtr_le_nframe, h.rdPtr_le_nframe, h.burstLength_le_nframe, h.frameCount⟩

end RegisterInv

/-- Settles O60: the pointers and counters are at most NFRAME, and PTR_W is the least width that holds NFRAME. -/
theorem pointersFitTheirWidth : Obligations.PointersFitTheirWidth := by
  intro s hgood
  constructor
  · intro n hn
    exact (hgood.registers.pointers_le_nframe n hn).trans_lt (nframe_lt_two_pow_ptrWidth s.params)
  · intro w hw
    exact ptrWidth_le_iff.mpr hw

end Sys2Proof.Machine
end

section
/-! PROOFS. The grammar of the TX stream (30_encoding.md R70 to R72), one byte at a time. -/

namespace Sys2Proof.Machine

theorem wireScan_append (bytes : List Byte) (b : Byte) : wireScan (bytes ++ [b]) = wireNext (wireScan bytes) b := by
  simp [wireScan]

theorem wireNext_byte1 (p : BitVec 5) : wireNext .between (wire 0#3 p) = .afterByte1 := by
  simp [wireNext, decodeWire]

theorem wireNext_byte2 (cont last : Bool) (p : BitVec 5) :
    wireNext .afterByte1 (wire (flagOf cont last) p) = .between := by
  cases cont <;> cases last <;> simp [wireNext, decodeWire, flagOf]

theorem wireNext_discard : wireNext .between encodeDiscard = .between := by decide

/-- Outside the transmitting phases the TX stream stands between two messages. -/
theorem wireNow_of_quiet {s : State} (h : transmits s.phase = false) : wireNow s = .between := by
  simp [wireNow, h]

theorem wireHeld_of_quiet {s : State} (h : transmits s.phase = false) : wireHeld s = .between := by
  simp [wireHeld, h]

/-- Byte 1 of a sample leads from `wireNow` to `wireHeld`. -/
theorem wireNext_byte1_of_transmits {s : State} (ht : transmits s.phase = true) (hm : s.micro ≠ .low) (p : BitVec 5) :
    wireNext (wireNow s) (wire 0#3 p) = wireHeld s := by
  simp [wireNow, wireHeld, ht, hm, wireNext_byte1]

/-- Byte 2 of a sample leads from `wireNow` to `wireHeld`. -/
theorem wireNext_byte2_of_transmits {s : State} (ht : transmits s.phase = true) (hm : s.micro = .low) (cont last : Bool)
    (p : BitVec 5) : wireNext (wireNow s) (wire (flagOf cont last) p) = wireHeld s := by
  simp [wireNow, wireHeld, ht, hm, wireNext_byte2]

end Sys2Proof.Machine
end

section
/-! PROOFS. Which instruction a step performs, said once (R30, R73): a command row of the line in DRAIN, a wire row of the sample
in a transmitting phase. -/

namespace Sys2Proof.Machine

theorem withDigit_stream {w dmax : Nat} {arg : Byte} {form : BitVec w → Instr} {i : Instr}
    (hform : ∀ d, (form d).stream = .rx) (h : withDigit w dmax arg form = .run i) : i.stream = .rx := by
  unfold withDigit at h
  split at h <;> cases h
  exact hform _

theorem decodeRunState_stream {arg : Byte} {i : Instr} (h : decodeRunState arg = .run i) : i.stream = .rx := by
  unfold decodeRunState at h
  split at h <;> cases h <;> rfl

theorem decodeTriggerMode_stream {arg : Byte} {i : Instr} (h : decodeTriggerMode arg = .run i) : i.stream = .rx := by
  unfold decodeTriggerMode at h
  split_ifs at h <;> cases h <;> rfl

theorem decodePair_stream {op arg : Byte} {i : Instr} (h : decodePair op arg = .run i) : i.stream = .rx := by
  unfold decodePair at h
  split_ifs at h
  · exact withDigit_stream (fun _ => rfl) h
  · exact withDigit_stream (fun _ => rfl) h
  · exact decodeRunState_stream h
  · exact decodeTriggerMode_stream h
  · exact withDigit_stream (fun _ => rfl) h
  · exact withDigit_stream (fun _ => rfl) h

/-- A line decodes to a command row only (R73). -/
theorem decodeLine_stream {content : List Byte} {i : Instr} (h : decodeLine content = .run i) : i.stream = .rx := by
  unfold decodeLine at h
  split at h
  · cases h
  · split at h <;> cases h
  · exact decodePair_stream h

/-- The step performs the command `i` of the finished line (R151, R154). -/
def Dispatches (s : State) (i : Instr) : Prop :=
  s.phase = .drain ∧ (∃ rest, s.rx = newline :: rest) ∧ decodeLine (lineContent s) = .run i

/-- Everything that can be fetched: a command, Byte 1 of the sample being sent, or its Byte 2. -/
inductive FetchCase (s : State) : Instr → Prop where
  | command (i : Instr) (hd : Dispatches s i) : FetchCase s i
  | byte1 (v : Sample) (ht : transmits s.phase = true) (hs : s.phase = .bXmit → s.micro ≠ .start) (hm : s.micro ≠ .low) :
      FetchCase s (hiInstr v)
  | byte2 (v : Sample) (cont last : Bool) (ht : transmits s.phase = true) (hm : s.micro = .low) :
      FetchCase s (loInstr v cont last)

theorem fetchedCommand_case {s : State} {i : Instr} (hp : s.phase = .drain) (h : fetchedCommand s = some i) :
    Dispatches s i := by
  unfold fetchedCommand at h
  split at h
  · cases h
  · rename_i b rest hrx
    split_ifs at h with hb
    refine ⟨hp, ⟨rest, hb ▸ hrx⟩, ?_⟩
    cases hd : decodeLine (lineContent s) <;> rw [hd] at h <;> cases h
    rfl

theorem fetchedBurstByte_case {s : State} {i : Instr} (hp : s.phase = .bXmit) (h : fetchedBurstByte s = some i) :
    FetchCase s i := by
  have ht : transmits s.phase = true := by rw [hp]; rfl
  unfold fetchedBurstByte at h
  split at h
  · dsimp only at h
    split at h
    · cases h
    · rename_i hm
      split at h <;> cases h
      exact .byte1 _ ht (fun _ => by simp [hm]) (by simp [hm])
    · cases h
      exact .byte2 _ _ _ ht ‹_›
  · cases h

theorem fetchedContByte_case {s : State} {i : Instr} (hp : s.phase = .cXmit) (h : fetchedContByte s = some i) :
    FetchCase s i := by
  have ht : transmits s.phase = true := by rw [hp]; rfl
  unfold fetchedContByte at h
  dsimp only at h
  split at h <;> cases h
  · exact .byte2 _ _ _ ht ‹_›
  · exact .byte1 _ ht (by simp [hp]) ‹_›

/-- One inversion for the fetch. -/
theorem fetched_case {s : State} {i : Instr} (h : fetched s = some i) : FetchCase s i := by
  unfold fetched at h
  split at h
  · exact .command i (fetchedCommand_case ‹_› h)
  · exact fetchedBurstByte_case ‹_› h
  · exact fetchedContByte_case ‹_› h
  all_goals cases h

/-- Only DRAIN takes anything from the RX stream for its instruction (R85). -/
theorem consumed_of_transmits {s : State} (h : transmits s.phase = true) : consumed s = s := by
  cases hp : s.phase <;> simp [hp, transmits] at h <;> simp [consumed, hp]

theorem consumed_drain {s : State} (h : s.phase = .drain) : consumed s = { s with rx := s.rx.tail } := by
  simp [consumed, h]

/-- While the read-out has an entry left, B_XMIT sends a byte (R124). -/
theorem fetched_bXmit {s : State} (hp : s.phase = .bXmit) (hm : s.micro ≠ .start) (hr : s.rdPtr < s.burstLength)
    (hn : s.rdPtr < s.params.nframe) : fetched s ≠ none := by
  cases hmi : s.micro <;> simp [fetched, fetchedBurstByte, hp, hmi, hr, hn] at hm ⊢

end Sys2Proof.Machine
end

section
/-! PROOFS. The good-state invariant (10_state.md R34), part by part: when each part holds, and what the operations of the
sequencer do to it. -/

namespace Sys2Proof.Machine

/-- The phases in which a TxPush can be in progress (R30, R170). -/
def Pushing (s : State) : Prop :=
  s.phase = .drain ∨ s.phase = .cXmit ∨ (s.phase = .bXmit ∧ s.micro ≠ .start)

/-- R34 (a): the burst length is positive, because NFRAME >= 1. -/
theorem RegisterInv.burstLength_pos {s : State} (h : RegisterInv s) : 0 < s.burstLength := by
  have hlen := h.burstLength
  cases hmode : s.mode <;> rw [hmode] at hlen
  case burst => exact hlen ▸ Nat.succ_pos s.params.lastEntry
  case continuous => exact hlen ▸ Nat.one_pos

/-- In DRAIN the phases' entry conditions are empty. -/
theorem PhaseInv.of_drain {s : State} (hp : s.phase = .drain) (hm : s.micro ≠ .low) : PhaseInv s := by
  constructor <;> simp [hp, hm, transmits]

/-- The entry conditions of the phases that do not transmit. -/
theorem PhaseInv.of_quiet {s : State} (hq : transmits s.phase = false) (hm : s.micro ≠ .low)
    (hb : s.phase = .bTrig ∨ s.phase = .bFill → s.mode = .burst)
    (hc : s.phase = .cTrig ∨ s.phase = .cRead → s.mode = .continuous)
    (hr : s.phase = .cTrig → s.frameCount = 0) : PhaseInv s := by
  have hbx : s.phase ≠ .bXmit := fun h => by simp [h, transmits] at hq
  have hcx : s.phase ≠ .cXmit := fun h => by simp [h, transmits] at hq
  exact {
    burst := fun h => hb (by simpa [hbx] using h)
    continuous := fun h => hc (by simpa [hcx] using h)
    frame := fun h => absurd h hbx
    running := fun h => absurd (hq.symm.trans h) nofun
    resync := hr
    readOut := fun h => absurd h hbx
    contStarted := fun h => absurd h hcx
    low := fun h => absurd h hm }

theorem PhaseInv.micro_ne_low {s : State} (h : PhaseInv s) (hq : transmits s.phase = false) : s.micro ≠ .low :=
  fun hm => by simp [h.low hm] at hq

/-- A TxPush that is in progress pushes one byte. -/
theorem WireInv.held_cons {s : State} {b : Byte} {held : List Byte} (h : WireInv s) (hh : s.txHeld = b :: held) :
    held = [] ∧ wireScan (s.tx ++ [b]) = wireHeld s ∧ Pushing s := by
  obtain hn | ⟨c, hc, hscan, hpush⟩ := h.held
  · simp [hn] at hh
  · obtain ⟨rfl, rfl⟩ : c = b ∧ [] = held := by simpa [hc] using hh
    exact ⟨rfl, hscan, hpush⟩

/-- What a good state comes to between two messages, outside the transmitting phases. -/
theorem GoodState.of_quiet {s : State} (hr : RegisterInv s) (hs : StoreInv s) (hp : PhaseInv s)
    (hq : transmits s.phase = false) (hh : s.txHeld = []) (hw : wireScan s.tx = .between) : GoodState s :=
  ⟨hr, hs, hp, hw.trans (wireNow_of_quiet hq).symm, .inl hh⟩

/-- A phase that does not transmit is entered between two messages, under its condition. -/
theorem GoodState.enter_quiet {s : State} {p : Phase} (hr : RegisterInv s) (hs : StoreInv s) (hh : s.txHeld = [])
    (hw : wireScan s.tx = .between) (hq : transmits p = false) (hb : p = .bTrig ∨ p = .bFill → s.mode = .burst)
    (hc : p = .cTrig ∨ p = .cRead → s.mode = .continuous) (h0 : p = .cTrig → s.frameCount = 0) :
    GoodState (enter p s) := by
  have hm : (enter p s).micro ≠ .low := by cases p <;> simp [enter_micro]
  exact .of_quiet { hr with } { hs with } (.of_quiet hq hm hb hc h0) hq hh hw

/-- The way back to DRAIN, from any phase. -/
theorem GoodState.enter_drain {s : State} (hr : RegisterInv s) (hs : StoreInv s) (hh : s.txHeld = [])
    (hw : wireScan s.tx = .between) : GoodState (enter .drain s) :=
  .enter_quiet hr hs hh hw rfl nofun nofun nofun

/-- Outside the transmitting phases a good state's TX stream stands between two messages. -/
theorem GoodState.between {s : State} (h : GoodState s) (hq : transmits s.phase = false) : wireScan s.tx = .between :=
  h.wire.sent.trans (wireNow_of_quiet hq)

/-! ### The environment -/

/-- What the environment writes is in no part of the invariant (R51). -/
theorem GoodState.environment {s : State} (h : GoodState s) (rx : List Byte) (tick ready : Bool) (turns : List Turn) :
    GoodState { s with rx := rx, tickPending := tick, txReady := ready, schedule := turns } :=
  ⟨{ h.registers with }, { h.stores with }, { h.phases with }, { h.wire with }⟩

/-- The state after reset is good, whatever the parameters (R34, R35). -/
theorem goodState_resetOf (p : Params) : GoodState (State.resetOf p) where
  registers := by constructor <;> simp [State.resetOf, Params.nframe, Config.lineMax, burstAdcHz, burstTickHz]
  stores := by
    obtain ⟨hbuf, hline⟩ := reset_memory_wf p
    exact ⟨hbuf, hline, by simp [State.resetOf], by simp [State.resetOf]⟩
  phases := .of_drain rfl (by simp [State.resetOf])
  wire := by
    refine ⟨?_, .inl rfl⟩
    rw [wireNow_of_quiet rfl]
    cases hb : p.bootEmitsDiscard <;> simp [State.resetOf, hb] <;> decide

theorem goodState_powerOn (s : State) : GoodState (powerOn s) := by
  have h := goodState_resetOf s.params
  exact ⟨{ h.registers with }, { h.stores with }, { h.phases with }, { h.wire with }⟩

/-! ### The end of an instruction -/

theorem retired_drain {s : State} (hp : s.phase = .drain) : retired s = { s with lineLen := 0 } := by
  simp [retired, hp, resetLine]

theorem retired_byte1 {s : State} (ht : transmits s.phase = true) (hm : s.micro ≠ .low) :
    retired s = { s with micro := .low } := by
  cases hp : s.phase <;> simp [hp, transmits] at ht <;> cases hmi : s.micro <;> simp_all [retired]

theorem retired_burst_byte2 {s : State} (hp : s.phase = .bXmit) (hm : s.micro = .low) : retired s = afterBurstPair s := by
  simp [retired, hp, hm]

theorem retired_cont_byte2 {s : State} (hp : s.phase = .cXmit) (hm : s.micro = .low) : retired s = afterContPair s := by
  simp [retired, hp, hm]

/-- R124, R185: the read-out goes on below `burst_length`, or the frame ends. -/
theorem GoodState.afterBurstPair {s : State} (hr : RegisterInv s) (hs : StoreInv s) (hp : PhaseInv s) (hh : s.txHeld = [])
    (hw : wireScan s.tx = .between) (hph : s.phase = .bXmit) (hm : s.micro = .low) : GoodState (afterBurstPair s) := by
  have hlt : s.rdPtr < s.burstLength := hp.readOut hph (by simp [hm])
  unfold Machine.afterBurstPair
  dsimp only
  split
  · refine ⟨{ hr with rdPtr := hlt }, { hs with }, ?_, ?_, .inl hh⟩
    · exact { hp with readOut := fun _ _ => ‹_›, contStarted := fun _ => nofun, low := nofun }
    · exact hw.trans (by simp [wireNow])
  · exact .enter_drain { hr with rdPtr := hlt } { hs with } hh hw

/-- R187, R188: the count stays at most NFRAME. -/
theorem GoodState.afterContPair {s : State} (hr : RegisterInv s) (hs : StoreInv s) (hh : s.txHeld = [])
    (hw : wireScan s.tx = .between) : GoodState (afterContPair s) := by
  unfold Machine.afterContPair
  split
  · exact .enter_drain { hr with frameCount := Nat.zero_le _ } { hs with } hh hw
  · exact .enter_drain { hr with frameCount := Nat.lt_of_not_le ‹_› } { hs with } hh hw

/-- When the byte in progress, if any, has joined TX, what follows the instruction leaves a good state. -/
theorem GoodState.retired {s : State} (hr : RegisterInv s) (hs : StoreInv s) (hp : PhaseInv s) (hh : s.txHeld = [])
    (hw : wireScan s.tx = wireHeld s) (hpush : Pushing s) : GoodState (retired s) := by
  by_cases hd : s.phase = .drain
  · have hq : transmits s.phase = false := by rw [hd]; rfl
    rw [retired_drain hd]
    exact .of_quiet { hr with lineLen := Nat.succ_pos 15 } { hs with } { hp with } hq hh (hw.trans (wireHeld_of_quiet hq))
  have ht : transmits s.phase = true := by
    rcases hpush with h | h | ⟨h, -⟩
    · exact absurd h hd
    · rw [h]; rfl
    · rw [h]; rfl
  by_cases hm : s.micro = .low
  · have hb : wireScan s.tx = .between := hw.trans (by simp [wireHeld, hm])
    rcases hpush with h | h | ⟨h, -⟩
    · exact absurd h hd
    · rw [retired_cont_byte2 h hm]
      exact .afterContPair hr hs hh hb
    · rw [retired_burst_byte2 h hm]
      exact .afterBurstPair hr hs hp hh hb h hm
  · have hstart : s.phase = .bXmit → s.micro ≠ .start := fun h => by
      rcases hpush with h' | h' | ⟨-, h'⟩
      · exact absurd h' hd
      · simp [h'] at h
      · exact h'
    rw [retired_byte1 ht hm]
    refine ⟨{ hr with }, { hs with }, ?_, hw.trans (by simp [wireHeld, wireNow, ht, hm]), .inl hh⟩
    exact { hp with readOut := fun h _ => hp.readOut h (hstart h), contStarted := fun _ => nofun, low := fun _ => ht }

/-! ### Instructions -/

/-- R34 (a), (b), (f), (g) through every meaning: `C` and `B` write the length, the count and the rates together, and `C` gives
the idle pointers their value (log 12). -/
theorem exec_registerInv {i : Instr} {s t : State} (h : exec i s = .next t) (hr : RegisterInv s) : RegisterInv t := by
  cases i <;> cases h
  case setContinuousMode =>
    exact { hr with
      burstLength := rfl, frameCount := Nat.zero_le _, wrPtr := Nat.zero_le _, rdPtr := Nat.zero_le _, adcRate := rfl
      tickRate := rfl }
  case setBurstMode =>
    exact { hr with
      burstLength := rfl, frameCount := Nat.zero_le _, wrPtr := hr.wrPtr_le_nframe, rdPtr := hr.rdPtr_le_nframe
      adcRate := rfl, tickRate := rfl }
  case setRunStateRun => exact { hr with frameCount := Nat.zero_le _ }
  case setRunStateSingle => exact { hr with frameCount := Nat.zero_le _ }
  all_goals exact { hr with }

theorem exec_storeInv {i : Instr} {s t : State} (h : exec i s = .next t) (hs : StoreInv s) : StoreInv t := by
  cases i <;> cases h <;> exact { hs with }

/-- A command is dispatched in DRAIN, and a wire byte touches the TX stream alone. -/
theorem exec_phaseInv {i : Instr} {s t : State} (h : exec i s = .next t) (hi : s.phase = .drain ∨ i.stream = .tx)
    (hp : PhaseInv s) : PhaseInv t := by
  rcases hi with hd | hi
  · obtain ⟨-, -, -, -, -, -, -, -, hphase, hmicro, -⟩ := exec_untouched h
    exact .of_drain (hphase.trans hd) (hmicro ▸ hp.micro_ne_low (by rw [hd]; rfl))
  · obtain ⟨b, -, rfl⟩ := exec_wire hi h
    exact { hp with }

/-- A push with no byte before it: the byte joins TX or is held (R86). -/
theorem txPush_streams {s : State} (hh : s.txHeld = []) (b : Byte) :
    (txPush b s).tx = s.tx ++ [b] ∧ (txPush b s).txHeld = [] ∨ (txPush b s).tx = s.tx ∧ (txPush b s).txHeld = [b] := by
  cases hr : s.txReady
  · exact .inr (by simp [txPush_held (.inl hr), hh])
  · exact .inl (by simp [txPush_ready hr hh, hh])

/-- An instruction's bytes join TX or are held (R168, R86). -/
theorem exec_streams {i : Instr} {s t : State} (h : exec i s = .next t) (hh : s.txHeld = []) :
    t.tx = s.tx ++ pushedBytes i ∧ t.txHeld = [] ∨ t.tx = s.tx ∧ t.txHeld = pushedBytes i := by
  cases i <;> cases h
  case setContinuousMode => exact txPush_streams (by exact hh) _
  case setBurstMode => exact txPush_streams (by exact hh) _
  case setRunStateSingle => exact txPush_streams (by exact hh) _
  case sampleHi | burstMid | burstLast | contMid | contLast | discard => exact txPush_streams hh _
  all_goals exact .inr ⟨rfl, hh⟩

/-- R168: a command pushes nothing or the one discard byte. -/
theorem pushedBytes_command {i : Instr} (hi : i.stream = .rx) : pushedBytes i = [] ∨ pushedBytes i = [encodeDiscard] := by
  cases i <;> cases hi <;> simp [pushedBytes, encodeDiscard]

theorem pushedBytes_hiInstr (v : Sample) : pushedBytes (hiInstr v) = [wire 0#3 (v.extractLsb' 5 5)] := rfl

theorem pushedBytes_loInstr (v : Sample) (cont last : Bool) :
    pushedBytes (loInstr v cont last) = [wire (flagOf cont last) (v.extractLsb' 0 5)] := by
  cases cont <;> cases last <;> rfl

/-- No instruction pushes two bytes (R168). -/
theorem pushedBytes_le_one (i : Instr) : pushedBytes i = [] ∨ ∃ b, pushedBytes i = [b] := by
  cases i <;> simp [pushedBytes, encode]

theorem stream_hiInstr (v : Sample) : (hiInstr v).stream = .tx := rfl

theorem stream_loInstr (v : Sample) (cont last : Bool) : (loInstr v cont last).stream = .tx := by
  cases cont <;> cases last <;> rfl

/-- What is fetched continues the TX stream as R70 to R72 describe. -/
theorem FetchCase.wireScan_pushed {s : State} {i : Instr} (h : FetchCase s i) (hw : wireScan s.tx = wireNow s) :
    wireScan (s.tx ++ pushedBytes i) = wireHeld s := by
  cases h with
  | command _ hd =>
    obtain ⟨hp, -, hdec⟩ := hd
    have hq : transmits s.phase = false := by rw [hp]; rfl
    rw [wireNow_of_quiet hq] at hw
    rw [wireHeld_of_quiet hq]
    rcases pushedBytes_command (decodeLine_stream hdec) with hb | hb <;> rw [hb]
    · rwa [List.append_nil]
    · rw [wireScan_append, hw, wireNext_discard]
  | byte1 v ht _ hm => rw [pushedBytes_hiInstr, wireScan_append, hw, wireNext_byte1_of_transmits ht hm]
  | byte2 v cont last ht hm => rw [pushedBytes_loInstr, wireScan_append, hw, wireNext_byte2_of_transmits ht hm]

theorem FetchCase.pushing {s : State} {i : Instr} (h : FetchCase s i) : Pushing s := by
  cases h with
  | command _ hd => exact .inl hd.1
  | byte1 v ht hs hm => cases hp : s.phase <;> simp_all [transmits, Pushing]
  | byte2 v cont last ht hm => cases hp : s.phase <;> simp_all [transmits, Pushing]

theorem FetchCase.drain_or_wire {s : State} {i : Instr} (h : FetchCase s i) : s.phase = .drain ∨ i.stream = .tx := by
  cases h with
  | command _ hd => exact .inl hd.1
  | byte1 v => exact .inr (stream_hiInstr v)
  | byte2 v cont last => exact .inr (stream_loInstr v cont last)

/-- An instruction that continues the TX stream keeps the invariant, whether the transport takes its byte at once or not. -/
theorem GoodState.retire_exec {i : Instr} {s t : State} (h : GoodState s) (hh : s.txHeld = []) (hx : exec i s = .next t)
    (hi : s.phase = .drain ∨ i.stream = .tx) (hw : wireScan (s.tx ++ pushedBytes i) = wireHeld s) (hpush : Pushing s) :
    GoodState (retire t) := by
  obtain ⟨-, -, -, -, -, -, -, -, hphase, hmicro, -⟩ := exec_untouched hx
  have hr := exec_registerInv hx h.registers
  have hs := exec_storeInv hx h.stores
  have hp := exec_phaseInv hx hi h.phases
  have hheld : wireHeld t = wireHeld s := by simp [wireHeld, hphase, hmicro]
  have hnow : wireNow t = wireNow s := by simp [wireNow, hphase, hmicro]
  have hpush' : Pushing t := by simpa [Pushing, hphase, hmicro] using hpush
  rcases exec_streams hx hh with ⟨htx, hth⟩ | ⟨htx, hth⟩
  · have hscan : wireScan t.tx = wireHeld t := by rw [htx, hw, hheld]
    simpa [retire, hth] using GoodState.retired hr hs hp hth hscan hpush'
  · rcases pushedBytes_le_one i with hb | ⟨b, hb⟩ <;> rw [hb] at hw hth
    · have hscan : wireScan t.tx = wireHeld t := by rw [htx, hheld, ← hw, List.append_nil]
      simpa [retire, hth] using GoodState.retired hr hs hp hth hscan hpush'
    · have hgood : GoodState t :=
        ⟨hr, hs, hp, by rw [htx, hnow, h.wire.sent], .inr ⟨b, hth, by rw [htx, hw, hheld], hpush'⟩⟩
      simpa [retire, hth] using hgood

/-- An instruction fetched and performed. -/
theorem GoodState.issue {i : Instr} {s t : State} (h : GoodState s) (hh : s.txHeld = []) (hf : fetched s = some i)
    (hx : exec i (consumed s) = .next t) : GoodState (retire t) := by
  have hc := fetched_case hf
  have hw := hc.wireScan_pushed h.wire.sent
  by_cases ht : transmits s.phase = true
  · rw [consumed_of_transmits ht] at hx
    exact h.retire_exec hh hx hc.drain_or_wire hw hc.pushing
  · have hd : s.phase = .drain := by
      rcases hc.pushing with hp | hp | ⟨hp, -⟩
      · exact hp
      · simp [hp, transmits] at ht
      · simp [hp, transmits] at ht
    rw [consumed_drain hd] at hx
    exact (h.environment s.rx.tail s.tickPending s.txReady s.schedule).retire_exec hh hx (.inl hd) hw hc.pushing

/-- The completion of a TxPush that was held back. -/
theorem GoodState.complete {b : Byte} {held : List Byte} {s : State} (h : GoodState s) (hh : s.txHeld = b :: held) :
    GoodState (retire { s with tx := s.tx ++ [b], txHeld := held }) := by
  obtain ⟨rfl, hscan, hpush⟩ := h.wire.held_cons hh
  have hr : RegisterInv { s with tx := s.tx ++ [b], txHeld := [] } := { h.registers with }
  exact .retired hr { h.stores with } { h.phases with } rfl hscan hpush

end Sys2Proof.Machine
end

section
/-! PROOFS. O50, O51: the good-state invariant at reset and through every step, by the inversion lemma `step_case`. -/

namespace Sys2Proof.Machine

/-- A write inside the frame store keeps its canonical form and its indices (R41). -/
theorem StoreInv.write_buf {s : State} (h : StoreInv s) {i : Nat} (hi : i < s.params.nframe) (v : Sample) :
    StoreInv { s with buf := Memory.write s.buf i v } :=
  { h with
    buf := Memory.write_wf s.buf h.buf i v
    bufIndex := fun e he => by
      rcases Memory.mem_write he with ⟨rfl, -⟩ | he
      · exact hi
      · exact h.bufIndex e he }

/-- An append inside the line buffer keeps its canonical form and its indices (R43). -/
theorem StoreInv.write_line {s : State} (h : StoreInv s) {i : Nat} (hi : i < Config.lineMax) (b : Byte) :
    StoreInv { s with line := Memory.write s.line i b } :=
  { h with
    line := Memory.write_wf s.line h.line i b
    lineIndex := fun e he => by
      rcases Memory.mem_write he with ⟨rfl, -⟩ | he
      · exact hi
      · exact h.lineIndex e he }

section
variable {s : State}

/-- R152, R153: the length stays below LINE_MAX, because at LINE_MAX the line is emptied. -/
theorem GoodState.storeLine (h : GoodState s) (b : Byte) (rest : List Byte) :
    GoodState { s with
      rx := rest
      line := Memory.write s.line s.lineLen b
      lineLen := if s.lineLen + 1 = Config.lineMax then 0 else s.lineLen + 1 } := by
  have hlt := h.registers.lineLen
  have hlen : (if s.lineLen + 1 = Config.lineMax then 0 else s.lineLen + 1) < Config.lineMax := by split <;> omega
  exact ⟨{ h.registers with lineLen := hlen }, { h.stores.write_line hlt b with }, { h.phases with }, { h.wire with }⟩

/-- R155: an ignored line leaves an empty one. -/
theorem GoodState.ignoreLine (h : GoodState s) (rest : List Byte) : GoodState { s with rx := rest, lineLen := 0 } :=
  ⟨{ h.registers with lineLen := Nat.succ_pos 15 }, { h.stores with }, { h.phases with }, { h.wire with }⟩

/-- R30, R182: the poll enters each transition in its mode, and the resynchronising wait at count 0. -/
theorem GoodState.poll (h : GoodState s) (hh : s.txHeld = []) (hp : s.phase = .poll) : GoodState (pollStep s) := by
  have hw := h.between (by rw [hp]; rfl)
  have hr : RegisterInv { s with tickPending := false } := { h.registers with }
  have hs : StoreInv { s with tickPending := false } := { h.stores with }
  unfold pollStep tickTake
  dsimp only
  split
  · split
    · exact .enter_quiet hr hs hh hw rfl (fun _ => ‹_›) nofun nofun
    · split
      · exact .enter_quiet hr hs hh hw rfl nofun (fun _ => ‹_›) (fun _ => ‹_›)
      · exact .enter_quiet hr hs hh hw rfl nofun (fun _ => ‹_›) nofun
  · exact .enter_drain hr hs hh hw

/-- R101: the wait's count begins at 0. -/
theorem GoodState.beginWait (h : GoodState s) (hh : s.txHeld = []) (hp : s.phase = .bTrig ∨ s.phase = .cTrig) :
    GoodState (beginWait s) := by
  have hq : transmits s.phase = false := by rcases hp with hp | hp <;> rw [hp] <;> rfl
  have hph := h.phases
  refine .of_quiet { h.registers with retryCnt := Nat.zero_le _ } { h.stores with } ?_ hq hh (h.between hq)
  exact .of_quiet hq nofun (fun hb => hph.burst (by tauto)) (fun hc => hph.continuous (by tauto)) hph.resync

/-- One sample shifted into the history: the count stays within its limit (R102, R13). -/
theorem GoodState.shiftSample (h : GoodState s) (v : Sample) (draws : List Sample) (hc : s.retryCnt < s.params.retryLimit) :
    GoodState (shiftSample v (converted s draws)) :=
  ⟨{ h.registers with retryCnt := hc }, { h.stores with }, { h.phases with }, { h.wire with }⟩

/-- The end of a wait: a Burst wait to the fill, a Continuous one to the read, in the same mode (R30). -/
theorem GoodState.endWait (h : GoodState s) (hh : s.txHeld = []) (o : TriggerOutcome) {after : Phase}
    (hp : s.phase = .bTrig ∧ after = .bFill ∨ s.phase = .cTrig ∧ after = .cRead) : GoodState (endWait o after s) := by
  have hr : RegisterInv { s with trigOutcome := o } := { h.registers with }
  have hs : StoreInv { s with trigOutcome := o } := { h.stores with }
  rcases hp with ⟨hp, rfl⟩ | ⟨hp, rfl⟩
  · have hw := h.between (by rw [hp]; rfl)
    exact .enter_quiet hr hs hh hw rfl (fun _ => h.phases.burst (.inl hp)) nofun nofun
  · have hw := h.between (by rw [hp]; rfl)
    exact .enter_quiet hr hs hh hw rfl nofun (fun _ => h.phases.continuous (.inl hp)) nofun

/-- R120. -/
theorem GoodState.beginFill (h : GoodState s) (hh : s.txHeld = []) (hp : s.phase = .bFill) :
    GoodState { s with wrPtr := 0, micro := .body } := by
  have hq : transmits s.phase = false := by rw [hp]; rfl
  have hph : PhaseInv { s with wrPtr := 0, micro := .body } :=
    .of_quiet hq nofun (fun _ => h.phases.burst (.inr (.inl hp))) (by simp [hp]) (by simp [hp])
  exact .of_quiet { h.registers with wrPtr := Nat.zero_le _ } { h.stores with } hph hq hh (h.between hq)

/-- R121: the entry written is below `burst_length`, so the pointer stays within it. -/
theorem GoodState.fillEntry (h : GoodState s) (v : Sample) (draws : List Sample) (hw : s.wrPtr < s.burstLength) :
    GoodState { converted s draws with buf := Memory.write s.buf s.wrPtr v, wrPtr := s.wrPtr + 1 } :=
  ⟨{ h.registers with wrPtr := hw },
    { h.stores.write_buf (hw.trans_le h.registers.burstLength_le_nframe) v with }, { h.phases with }, { h.wire with }⟩

/-- R184: the read-out is entered when its wait was Satisfied and the run state is not Stop. -/
theorem GoodState.endFill (h : GoodState s) (hh : s.txHeld = []) (hp : s.phase = .bFill) : GoodState (endFill s) := by
  have hw := h.between (by rw [hp]; rfl)
  unfold Machine.endFill
  split
  · rename_i hsend
    obtain ⟨hout, hrun⟩ : s.trigOutcome = .satisfied ∧ s.runState ≠ .stop := by simpa [sendsFrame] using hsend
    have hph : PhaseInv (enter .bXmit s) :=
      { burst := fun _ => h.phases.burst (.inr (.inl hp))
        continuous := nofun
        frame := fun _ => hout
        running := fun _ => hrun
        resync := nofun
        readOut := fun _ hm => absurd rfl hm
        contStarted := nofun
        low := nofun }
    exact ⟨{ h.registers with }, { h.stores with }, hph, hw, .inl hh⟩
  · exact .enter_drain h.registers h.stores hh hw

/-- R123, R187: entry 0 exists, and the sample is sent unless the run state is Stop. -/
theorem GoodState.advance (h : GoodState s) (hh : s.txHeld = []) (hp : s.phase = .cRead) (v : Sample)
    (draws : List Sample) :
    GoodState (enter (if s.runState = .stop then .drain else .cXmit)
      { converted s draws with buf := Memory.write s.buf 0 v, wrPtr := 1 }) := by
  have hw := h.between (by rw [hp]; rfl)
  have hr : RegisterInv { converted s draws with buf := Memory.write s.buf 0 v, wrPtr := 1 } :=
    { h.registers with wrPtr := h.registers.burstLength_pos }
  have hs : StoreInv { converted s draws with buf := Memory.write s.buf 0 v, wrPtr := 1 } :=
    { h.stores.write_buf (Nat.succ_pos s.params.lastEntry) v with }
  split
  · exact .enter_drain hr hs hh hw
  · rename_i hrun
    refine ⟨{ hr with }, { hs with }, ?_, hw, .inl hh⟩
    exact {
      burst := nofun
      continuous := fun _ => h.phases.continuous (.inr (.inl hp))
      frame := nofun
      running := fun _ => hrun
      resync := nofun
      readOut := nofun
      contStarted := fun _ => nofun
      low := nofun }

/-- R124: the pointer begins at 0, below `burst_length`. -/
theorem GoodState.beginReadOut (h : GoodState s) (hh : s.txHeld = []) (hmi : s.micro = .start) :
    GoodState { s with rdPtr := 0, micro := .body } := by
  have hpos := h.registers.burstLength_pos
  have hph : PhaseInv { s with rdPtr := 0, micro := .body } :=
    { h.phases with readOut := fun _ _ => hpos, contStarted := fun _ => nofun, low := nofun }
  have hw : wireScan s.tx = .between := h.wire.sent.trans (by simp [wireNow, hmi])
  exact ⟨{ h.registers with rdPtr := Nat.zero_le _ }, { h.stores with }, hph, hw.trans (by simp [wireNow]), .inl hh⟩

/-- In a good state the read-out ends with the last byte of its last entry, never before a byte is left to send (R124). -/
theorem GoodState.fetched_ne_none (h : GoodState s) (hp : s.phase = .bXmit) (hmi : s.micro ≠ .start) : fetched s ≠ none := by
  have hlt := h.phases.readOut hp hmi
  exact fetched_bXmit hp hmi hlt (hlt.trans_le h.registers.burstLength_le_nframe)

end

/-- Every step of the CORE keeps the invariant. -/
theorem CoreCase.goodState {s t : State} (hc : CoreCase s t) (h : GoodState s) : GoodState t := by
  cases hc with
  | push b held hh _ => exact h.complete hh
  | issue i u hh hf hx => exact h.issue hh hf hx
  | endDrain hh hp _ => exact .enter_quiet h.registers h.stores hh (h.between (by rw [hp]; rfl)) rfl nofun nofun nofun
  | store b rest => exact h.storeLine b rest
  | ignore _ rest => exact h.ignoreLine rest
  | poll hh hp => exact h.poll hh hp
  | waitFree after hh hp _ => exact h.endWait hh .satisfied hp
  | waitBegin hh hp _ _ => exact h.beginWait hh hp
  | waitMiss v draws hh hp _ _ hlim _ _ => exact h.shiftSample v draws hlim
  | waitHit after v draws hh hp _ _ hlim _ _ => exact (h.shiftSample v draws hlim).endWait hh .satisfied hp
  | waitTimeout after hh hp _ _ _ => exact h.endWait hh .timedOut hp
  | fillBegin hh hp _ => exact h.beginFill hh hp
  | fillEntry v draws _ _ _ hw _ _ => exact h.fillEntry v draws hw
  | fillEnd hh hp _ _ => exact h.endFill hh hp
  | advance v draws hh hp _ => exact h.advance hh hp v draws
  | readOutBegin hh _ hmi => exact h.beginReadOut hh hmi
  | readOutEnd _ hp hmi hf _ => exact absurd hf (h.fetched_ne_none hp hmi)

/-- Settles O51: the CORE's step by its cases, and the environment's acts, which touch no part of the invariant but at power-on,
where the state is that of reset. -/
theorem stepKeepsTheInvariant : Obligations.StepKeepsTheInvariant := by
  intro s t h hstep
  rcases step_case hstep with ⟨-, hc⟩ | ⟨turn, rest, -, hturn⟩
  · exact hc.goodState h
  · have hu : GoodState { s with schedule := rest } := h.environment s.rx s.tickPending s.txReady rest
    rcases hturn with ⟨-, hc⟩ | ⟨b, -, rfl⟩ | ⟨-, rfl⟩ | ⟨r, -, rfl⟩ | ⟨-, rfl⟩
    · exact hc.goodState hu
    · exact h.environment _ _ _ _
    · exact h.environment _ _ _ _
    · exact h.environment _ _ _ _
    · exact goodState_powerOn _

/-- Settles O50: the state after reset is good for any parameters, those of the reference configuration among them. -/
theorem resetIsGood : Obligations.ResetIsGood := ⟨goodState_resetOf Config.params, goodState_resetOf⟩

end Sys2Proof.Machine
end

section
/-! PROOFS. O48: the registers right after reset (R35). -/

namespace Sys2Proof.Machine

/-- Settles O48: each value is a field of `State.resetOf`. -/
theorem resetValues : Obligations.ResetValues :=
  fun _ => ⟨rfl, rfl, rfl, rfl, rfl, rfl, rfl, rfl, rfl, rfl, rfl, rfl, rfl, rfl, rfl, rfl, rfl, rfl⟩

end Sys2Proof.Machine
end

section
/-! PROOFS. O27: the end of the drain and the poll (R30, R88, R181 to R183). -/

namespace Sys2Proof.Machine

/-- With no push in progress and nothing fetched, a step is the sequencer's own. -/
theorem coreStep_internal {s : State} (hh : s.txHeld = []) (hf : fetched s = none) : coreStep s = internalStep s := by
  simp [coreStep, hh, hf]

/-- An empty RX ends the drain (R181). -/
theorem coreStep_drain_empty {s : State} (hh : s.txHeld = []) (hp : s.phase = .drain) (hrx : s.rx = []) :
    coreStep s = .next (enter .poll s) := by
  have hf : fetched s = none := by simp [fetched, fetchedCommand, hp, hrx]
  rw [coreStep_internal hh hf]
  simp [internalStep, drainStep, hp, hrx]

/-- POLL performs no instruction (R30). -/
theorem coreStep_poll {s : State} (hh : s.txHeld = []) (hp : s.phase = .poll) : coreStep s = .next (pollStep s) := by
  have hf : fetched s = none := by simp [fetched, hp]
  rw [coreStep_internal hh hf]
  simp [internalStep, hp]

/-- The poll as one record: the flag read and cleared, and the transition that mode and count select (R88, R182, R183). -/
theorem pollStep_eq (s : State) :
    pollStep s = { s with
      tickPending := false
      micro := .start
      phase :=
        if s.tickPending = false then .drain
        else if s.mode = .burst then .bTrig
        else if s.frameCount = 0 then .cTrig
        else .cRead } := by
  unfold pollStep tickTake
  cases s.tickPending
  case false => rfl
  case true =>
    cases s.mode
    case burst => simp [enter]
    case continuous => by_cases hc : s.frameCount = 0 <;> simp [hc, enter]

/-- Settles O27. -/
theorem pollTakesTheTick : Obligations.PollTakesTheTick := by
  intro s hh
  refine ⟨fun hp hrx => ?_, fun hp => ?_⟩
  · exact coreStep_drain_empty hh hp hrx
  · rw [coreStep_poll hh hp, pollStep_eq]

end Sys2Proof.Machine
end

section
/-! PROOFS. O55: the registers that one command alone writes (10_state.md R36). -/

namespace Sys2Proof.Machine

/-- The registers of R36 that one command alone writes, and those that nothing writes. -/
def selections (s : State) : BitVec 2 × BitVec 1 × TriggerMode × Sample × Params :=
  (s.channel, s.auxOut, s.trigMode, s.trigLevel, s.params)

theorem selections_txPush (b : Byte) (s : State) : selections (txPush b s) = selections s := rfl

theorem selections_consumed (s : State) : selections (consumed s) = selections s := by
  unfold consumed
  split <;> rfl

theorem selections_afterBurstPair (s : State) : selections (afterBurstPair s) = selections s := by
  unfold afterBurstPair
  dsimp only
  split <;> rfl

theorem selections_afterContPair (s : State) : selections (afterContPair s) = selections s := by
  unfold afterContPair
  split <;> rfl

theorem selections_retired (s : State) : selections (retired s) = selections s := by
  unfold retired
  split
  · rfl
  · split
    · exact selections_afterBurstPair s
    · rfl
  · split
    · exact selections_afterContPair s
    · rfl
  all_goals rfl

theorem selections_retire (s : State) : selections (retire s) = selections s := by
  unfold retire
  split
  · exact selections_retired s
  · rfl

theorem selections_pollStep (s : State) : selections (pollStep s) = selections s := by
  rw [pollStep_eq]
  rfl

theorem selections_endFill (s : State) : selections (endFill s) = selections s := by
  unfold endFill
  split <;> rfl

/-- A step of the CORE keeps the selections, or issues an instruction that decides them. -/
theorem CoreCase.selections_cases {s t : State} (hc : CoreCase s t) :
    selections t = selections s ∨
      ∃ i u, fetched s = some i ∧ exec i (consumed s) = .next u ∧ selections t = selections u := by
  cases hc with
  | push => exact .inl (selections_retire _)
  | issue i u _ hf hx => exact .inr ⟨i, u, hf, hx, selections_retire u⟩
  | poll => exact .inl (selections_pollStep s)
  | fillEnd => exact .inl (selections_endFill s)
  | _ => exact .inl rfl

/-- A wire byte keeps the selections, so only a dispatched command decides them. -/
theorem CoreCase.selections_of_dispatch {s t : State} (hc : CoreCase s t) :
    selections t = selections s ∨
      ∃ i u v, Dispatches s i ∧ exec i u = .next v ∧ selections u = selections s ∧
        selections t = selections v := by
  rcases hc.selections_cases with hsel | ⟨i, u, hf, hx, hsel⟩
  · exact .inl hsel
  · have hkeep := selections_consumed s
    have wire_keeps : i.stream = .tx → selections t = selections s := fun hi => by
      obtain ⟨b, -, rfl⟩ := exec_wire hi hx
      rw [hsel, selections_txPush, hkeep]
    cases fetched_case hf with
    | command _ hd => exact .inr ⟨i, consumed s, u, hd, hx, hkeep, hsel⟩
    | byte1 v => exact .inl (wire_keeps (stream_hiInstr v))
    | byte2 v cont last => exact .inl (wire_keeps (stream_loInstr v cont last))

/-- The same for a whole step, whichever turn it is. -/
theorem step_selections {s t : State} (h : step s = .next t) (hpow : ¬∃ rest, s.schedule = .powerOn :: rest) :
    selections t = selections s ∨
      ∃ i u v, Dispatches s i ∧ exec i u = .next v ∧ selections u = selections s ∧ selections t = selections v := by
  rcases step_case h with ⟨-, hc⟩ | ⟨turn, rest, hs, hturn⟩
  · exact hc.selections_of_dispatch
  · rcases hturn with ⟨-, hc⟩ | ⟨b, -, rfl⟩ | ⟨-, rfl⟩ | ⟨r, -, rfl⟩ | ⟨rfl, -⟩
    · exact hc.selections_of_dispatch
    · exact .inl rfl
    · exact .inl rfl
    · exact .inl rfl
    · exact absurd ⟨rest, hs⟩ hpow

/-- R24: `A` alone writes the channel. -/
theorem exec_channel {i : Instr} {s t : State} (h : exec i s = .next t) (hne : t.channel ≠ s.channel) :
    i = .setChannel t.channel := by
  cases i <;> cases h
  case setChannel => rfl
  all_goals exact absurd rfl hne

/-- R25: `G` alone writes the auxiliary output. -/
theorem exec_auxOut {i : Instr} {s t : State} (h : exec i s = .next t) (hne : t.auxOut ≠ s.auxOut) :
    i = .setAuxOutput t.auxOut := by
  cases i <;> cases h
  case setAuxOutput => rfl
  all_goals exact absurd rfl hne

/-- R23, R165: `TP`, `TN` and `TF` alone write the polarity, each its own value. -/
theorem exec_trigMode {i : Instr} {s t : State} (h : exec i s = .next t) (hne : t.trigMode ≠ s.trigMode) :
    (i, t.trigMode) ∈ [(.setTriggerModePositive, TriggerMode.risingEdge),
      (.setTriggerModeNegative, TriggerMode.fallingEdge), (.setTriggerModeFree, TriggerMode.free)] := by
  cases i <;> cases h
  case setTriggerModePositive | setTriggerModeNegative | setTriggerModeFree => simp
  all_goals exact absurd rfl hne

/-- Settles O55. -/
theorem selectionsChangeOnlyByTheirCommand : Obligations.SelectionsChangeOnlyByTheirCommand := by
  intro s t hstep hpow
  rcases step_selections hstep hpow with hsel | ⟨i, u, v, hd, hx, hu, ht⟩
  · obtain ⟨hch, haux, hmode, hlevel, hparams⟩ : t.channel = s.channel ∧ t.auxOut = s.auxOut ∧
        t.trigMode = s.trigMode ∧ t.trigLevel = s.trigLevel ∧ t.params = s.params := by
      simpa [selections] using hsel
    exact ⟨absurd hch, absurd haux, absurd hmode, hlevel, hparams⟩
  · simp only [selections, Prod.mk.injEq] at hu ht
    obtain ⟨hch, haux, hmode, hlevel, hparams⟩ := hu
    obtain ⟨hch', haux', hmode', hlevel', hparams'⟩ := ht
    obtain ⟨hxparams, -, -, hxlevel, -⟩ := exec_untouched hx
    rw [hch', haux', hmode', hlevel', hparams', ← hch, ← haux, ← hmode, ← hlevel, ← hparams]
    exact ⟨fun hne => exec_channel hx hne ▸ hd, fun hne => exec_auxOut hx hne ▸ hd,
      fun hne => ⟨i, hd, exec_trigMode hx hne⟩, hxlevel, hxparams⟩

end Sys2Proof.Machine
end

section
/-! PROOFS. O19: whose turn a step is (20_memory.md R51; log 1). -/

namespace Sys2Proof.Machine

/-- With no turn to come the CORE moves. -/
theorem step_of_no_turn {s : State} (hs : s.schedule = []) : step s = coreStep s := by
  simp only [step, hs]

/-- The head of the schedule moves, on the rest of it. -/
theorem step_of_turn {s : State} {turn : Turn} {rest : List Turn} (hs : s.schedule = turn :: rest) :
    step s = turnStep turn { s with schedule := rest } := by
  simp only [step, hs]

/-- Settles O19: each kind of turn, by what its act writes. -/
theorem scheduleDecidesWhoMoves : Obligations.ScheduleDecidesWhoMoves := by
  intro s rest
  refine ⟨step_of_no_turn, ?core, ?host, ?tick, ?transport⟩
  case core => exact step_of_turn
  case host => exact fun _ => step_of_turn
  case tick => exact step_of_turn
  case transport => exact fun _ => step_of_turn

end Sys2Proof.Machine
end

section
/-! PROOFS. O56: the order of the streams and of the conversions (20_memory.md R44 to R46, 40_ports_and_collaborators.md R81). -/

namespace Sys2Proof.Machine

/-- The CORE's two byte streams, the conversions to come and the conversions requested. -/
def streams (s : State) : List Byte × List Byte × List Sample × List AdcRequest :=
  (s.tx, s.rx, s.adcDraws, s.adcLog)

/-- All that the sequencer's bookkeeping after an instruction can write (R124, R151, R185, R187, R188). -/
theorem retired_frame (s : State) : ∃ runState frameCount phase micro rdPtr lineLen, retired s = { s with
    runState := runState, frameCount := frameCount, phase := phase, micro := micro, rdPtr := rdPtr, lineLen := lineLen } := by
  unfold retired
  split
  · exact ⟨_, _, _, _, _, _, rfl⟩
  · split
    · unfold afterBurstPair
      dsimp only
      split <;> exact ⟨_, _, _, _, _, _, rfl⟩
    · exact ⟨_, _, _, _, _, _, rfl⟩
  · split
    · unfold afterContPair
      split <;> exact ⟨_, _, _, _, _, _, rfl⟩
    · exact ⟨_, _, _, _, _, _, rfl⟩
  all_goals exact ⟨_, _, _, _, _, _, rfl⟩

/-- The bookkeeping after an instruction moves no stream. -/
theorem streams_retire (s : State) : streams (retire s) = streams s := by
  unfold retire
  split
  · obtain ⟨_, _, _, _, _, _, hr⟩ := retired_frame s
    rw [hr]
    rfl
  · rfl

theorem streams_pollStep (s : State) : streams (pollStep s) = streams s := by
  rw [pollStep_eq]
  rfl

theorem streams_endFill (s : State) : streams (endFill s) = streams s := by
  unfold endFill
  split <;> rfl

/-- How the streams may move from `s` to `t` in one step: R45 for TX, R44 for RX, R46 and R81 for the conversions. -/
structure StreamsInOrder (s t : State) : Prop where
  tx : ∃ pushed : List Byte, t.tx = s.tx ++ pushed ∧ pushed.length ≤ 1
  rx : t.rx = s.rx ∨ (∃ b, s.rx = b :: t.rx) ∨ ∃ b, t.rx = s.rx ++ [b]
  adc : t.adcDraws = s.adcDraws ∧ t.adcLog = s.adcLog ∨
    (∃ v, s.adcDraws = v :: t.adcDraws) ∧
      t.adcLog = s.adcLog ++ [{ channel := adcChannelPort s, rate := adcRatePort s }]

namespace StreamsInOrder

/-- No stream moves. -/
theorem of_eq {s t : State} (h : streams t = streams s) : StreamsInOrder s t := by
  simp only [streams, Prod.mk.injEq] at h
  obtain ⟨htx, hrx, hdraws, hlog⟩ := h
  exact ⟨⟨[], by simp [htx]⟩, .inl hrx, .inl ⟨hdraws, hlog⟩⟩

/-- One conversion, and nothing pushed or received (R82). -/
theorem of_converted {s t : State} {v : Sample} {draws : List Sample} (hd : s.adcDraws = v :: draws)
    (h : streams t = streams (converted s draws)) : StreamsInOrder s t := by
  simp only [streams, Prod.mk.injEq] at h
  obtain ⟨htx, hrx, hdraws, hlog⟩ := h
  exact ⟨⟨[], by simp [htx, converted]⟩, .inl hrx, .inr ⟨⟨v, by rw [hd, hdraws]; rfl⟩, hlog⟩⟩

/-- No conversion: what is left to say is how TX and RX move. -/
theorem of_no_conversion {s u t : State} (h : streams t = streams u) (hadc : u.adcDraws = s.adcDraws ∧ u.adcLog = s.adcLog)
    (htx : ∃ pushed : List Byte, u.tx = s.tx ++ pushed ∧ pushed.length ≤ 1)
    (hrx : u.rx = s.rx ∨ ∃ b, s.rx = b :: u.rx) : StreamsInOrder s t := by
  simp only [streams, Prod.mk.injEq] at h
  obtain ⟨htx', hrx', hdraws', hlog'⟩ := h
  exact ⟨htx' ▸ htx, hrx' ▸ hrx.imp_right .inl, .inl (hdraws' ▸ hlog' ▸ hadc)⟩

end StreamsInOrder

/-- Fetching takes the newline of a command from the front of RX, and nothing for a wire byte (R85, R151). -/
theorem FetchCase.rx_consumed {s : State} {i : Instr} (h : FetchCase s i) :
    (consumed s).rx = s.rx ∨ ∃ b, s.rx = b :: (consumed s).rx := by
  cases h with
  | command _ hd =>
    obtain ⟨hp, ⟨rest, hrx⟩, -⟩ := hd
    exact .inr ⟨newline, by simp [consumed_drain hp, hrx]⟩
  | byte1 _ ht => exact .inl (by rw [consumed_of_transmits ht])
  | byte2 _ _ _ ht => exact .inl (by rw [consumed_of_transmits ht])

/-- Fetching touches RX alone. -/
theorem consumed_eq (s : State) : consumed s = { s with rx := (consumed s).rx } := by
  unfold consumed
  split <;> rfl

/-- An instruction pushes at most one byte (R168) and takes at most the newline before it. -/
theorem StreamsInOrder.issue {s u : State} {i : Instr} (hh : s.txHeld = []) (hf : fetched s = some i)
    (hx : exec i (consumed s) = .next u) : StreamsInOrder s (retire u) := by
  have hrx := (fetched_case hf).rx_consumed
  rw [consumed_eq s] at hx
  obtain ⟨-, -, -, -, -, -, -, -, -, -, -, -, -, hurx, hdraws, hlog, -⟩ := exec_untouched hx
  have htx : ∃ pushed : List Byte, u.tx = s.tx ++ pushed ∧ pushed.length ≤ 1 := by
    rcases exec_streams hx hh with ⟨htx, -⟩ | ⟨htx, -⟩
    · refine ⟨pushedBytes i, htx, ?_⟩
      rcases pushedBytes_le_one i with hb | ⟨b, hb⟩ <;> simp [hb]
    · exact ⟨[], by simp [htx]⟩
  exact .of_no_conversion (streams_retire u) ⟨hdraws, hlog⟩ htx (by rwa [hurx])

/-- Every step of the CORE moves the streams in order. -/
theorem CoreCase.streamsInOrder {s t : State} (hc : CoreCase s t) : StreamsInOrder s t := by
  cases hc with
  | push b => exact .of_no_conversion (streams_retire _) ⟨rfl, rfl⟩ ⟨[b], rfl, le_rfl⟩ (.inl rfl)
  | issue i u hh hf hx => exact .issue hh hf hx
  | store b rest _ _ hrx => exact .of_no_conversion rfl ⟨rfl, rfl⟩ ⟨[], by simp⟩ (.inr ⟨b, hrx⟩)
  | ignore _ rest _ _ hrx => exact .of_no_conversion rfl ⟨rfl, rfl⟩ ⟨[], by simp⟩ (.inr ⟨newline, hrx⟩)
  | waitMiss v draws _ _ _ _ _ hd => exact .of_converted hd rfl
  | waitHit _ v draws _ _ _ _ _ hd => exact .of_converted hd rfl
  | fillEntry v draws _ _ _ _ _ hd => exact .of_converted hd rfl
  | advance v draws _ _ hd => exact .of_converted hd rfl
  | poll => exact .of_eq (streams_pollStep s)
  | fillEnd => exact .of_eq (streams_endFill s)
  | _ => exact .of_eq rfl

/-- The same for a whole step, whichever turn it is. -/
theorem step_streamsInOrder {s t : State} (h : step s = .next t) (hpow : ¬∃ rest, s.schedule = .powerOn :: rest) :
    StreamsInOrder s t := by
  rcases step_case h with ⟨-, hc⟩ | ⟨turn, rest, hs, hturn⟩
  · exact hc.streamsInOrder
  · rcases hturn with ⟨-, hc⟩ | ⟨b, -, rfl⟩ | ⟨-, rfl⟩ | ⟨r, -, rfl⟩ | ⟨rfl, -⟩
    · exact { hc.streamsInOrder with }
    · exact ⟨⟨[], by simp⟩, .inr (.inr ⟨b, rfl⟩), .inl ⟨rfl, rfl⟩⟩
    · exact .of_eq rfl
    · exact .of_eq rfl
    · exact absurd ⟨rest, hs⟩ hpow

/-- Settles O56. -/
theorem streamsMoveInOrder : Obligations.StreamsMoveInOrder := by
  intro s t hstep hpow
  obtain ⟨htx, hrx, hadc⟩ := step_streamsInOrder hstep hpow
  exact ⟨htx, hrx, hadc⟩

end Sys2Proof.Machine
end

section
/-! PROOFS. O57: the acts of the environment commute with the CORE's step (20_memory.md R51, 10_state.md R30). -/

namespace Sys2Proof.Machine

/-- What may arrive at the CORE in one turn of the environment: bytes on RX (R44), a tick (R87). -/
def arrive (more : List Byte) (tick : Bool) (s : State) : State :=
  { s with rx := s.rx ++ more, tickPending := s.tickPending || tick }

theorem hostSends_eq_arrive (b : Byte) : hostSends b = arrive [b] false := by
  funext s
  simp [hostSends, arrive]

theorem tickArrives_eq_arrive : tickArrives = arrive [] true := by
  funext s
  simp [tickArrives, arrive]

/-- The CORE looks at what arrives in two places only (R30): at RX in DRAIN, where a byte left hides those behind it, and at
the flag in POLL. -/
structure Unseen (more : List Byte) (tick : Bool) (s : State) : Prop where
  drain : s.phase = .drain → s.rx = [] → more = []
  poll : s.phase = .poll → tick = false

/-- An operation that commutes in both branches of a test on which both sides agree. -/
theorem ite_eq_apply_ite {α β : Type} (f : α → β) {p : Prop} [Decidable p] {a b : α} {a' b' : β} (ha : a' = f a)
    (hb : b' = f b) : (if p then a' else b') = f (if p then a else b) := by
  rw [apply_ite f, ha, hb]

section
variable (more : List Byte) (tick : Bool) (s : State)

@[simp] theorem arrive_phase : (arrive more tick s).phase = s.phase := rfl
@[simp] theorem arrive_micro : (arrive more tick s).micro = s.micro := rfl
@[simp] theorem arrive_txHeld : (arrive more tick s).txHeld = s.txHeld := rfl
@[simp] theorem arrive_trigMode : (arrive more tick s).trigMode = s.trigMode := rfl
@[simp] theorem arrive_rx : (arrive more tick s).rx = s.rx ++ more := rfl
@[simp] theorem arrive_adcDraws : (arrive more tick s).adcDraws = s.adcDraws := rfl

/-! ### The operations that look at neither: an arrival before them is an arrival after them -/

theorem afterBurstPair_arrive : afterBurstPair (arrive more tick s) = arrive more tick (afterBurstPair s) :=
  ite_eq_apply_ite (arrive more tick) rfl rfl

theorem afterContPair_arrive : afterContPair (arrive more tick s) = arrive more tick (afterContPair s) :=
  ite_eq_apply_ite (arrive more tick) rfl rfl

theorem retired_arrive : retired (arrive more tick s) = arrive more tick (retired s) := by
  unfold retired
  rw [arrive_phase, arrive_micro]
  cases s.phase
  case bXmit =>
    cases s.micro
    case low => exact afterBurstPair_arrive more tick s
    all_goals rfl
  case cXmit =>
    cases s.micro
    case low => exact afterContPair_arrive more tick s
    all_goals rfl
  all_goals rfl

theorem retire_arrive : retire (arrive more tick s) = arrive more tick (retire s) :=
  ite_eq_apply_ite (arrive more tick) (retired_arrive more tick s) rfl

theorem endFill_arrive : endFill (arrive more tick s) = arrive more tick (endFill s) :=
  ite_eq_apply_ite (arrive more tick) rfl rfl

/-- A meaning reads and writes neither RX nor the flag (R169). -/
theorem exec_arrive (i : Instr) : exec i (arrive more tick s) = mapNext (arrive more tick) (exec i s) := by
  cases i <;> rfl

theorem issue_arrive (i : Instr) : issue i (arrive more tick s) = mapNext (arrive more tick) (issue i s) := by
  unfold issue
  rw [exec_arrive]
  cases exec i s
  case next t => exact congrArg _ (retire_arrive more tick t)
  all_goals rfl

theorem completePush_arrive (b : Byte) (held : List Byte) :
    completePush b held (arrive more tick s) = mapNext (arrive more tick) (completePush b held s) := by
  have hretire := retire_arrive more tick { s with tx := s.tx ++ [b], txHeld := held }
  exact ite_eq_apply_ite (mapNext (arrive more tick)) (congrArg _ hretire) rfl

/-- A conversion, when what follows it commutes. -/
theorem adcRead_arrive {k k' : Sample → State → Result}
    (hk : ∀ v t, k' v (arrive more tick t) = mapNext (arrive more tick) (k v t)) :
    adcRead (arrive more tick s) k' = mapNext (arrive more tick) (adcRead s k) := by
  unfold adcRead
  rw [arrive_adcDraws]
  cases s.adcDraws
  case nil => rfl
  case cons v draws => exact hk v (converted s draws)

/-- A write of the frame store, when what follows it commutes. -/
theorem memWrite_arrive {i : Nat} {v : Sample} {k k' : State → Result}
    (hk : ∀ t, k' (arrive more tick t) = mapNext (arrive more tick) (k t)) :
    memWrite i v (arrive more tick s) k' = mapNext (arrive more tick) (memWrite i v s k) :=
  ite_eq_apply_ite (mapNext (arrive more tick)) (hk { s with buf := Memory.write s.buf i v }) rfl

theorem waitIteration_arrive (after : Phase) :
    waitIteration after (arrive more tick s) = mapNext (arrive more tick) (waitIteration after s) := by
  refine ite_eq_apply_ite (mapNext (arrive more tick)) (adcRead_arrive more tick s fun v t => ?_) rfl
  exact ite_eq_apply_ite (mapNext (arrive more tick)) rfl rfl

theorem waitStep_arrive (after : Phase) :
    waitStep after (arrive more tick s) = mapNext (arrive more tick) (waitStep after s) := by
  have hiter := waitIteration_arrive more tick s after
  unfold waitStep
  rw [arrive_trigMode, arrive_micro]
  cases s.trigMode
  case free => rfl
  all_goals
    cases s.micro
    case start => rfl
    all_goals exact hiter

theorem fillStep_arrive : fillStep (arrive more tick s) = mapNext (arrive more tick) (fillStep s) := by
  unfold fillStep
  rw [arrive_micro, endFill_arrive]
  cases s.micro
  case start => rfl
  all_goals
    refine ite_eq_apply_ite (mapNext (arrive more tick)) (adcRead_arrive more tick s fun v t => ?_) rfl
    exact memWrite_arrive more tick t fun u => rfl

theorem advanceOne_arrive : advanceOne (arrive more tick s) = mapNext (arrive more tick) (advanceOne s) := by
  refine adcRead_arrive more tick s fun v t => memWrite_arrive more tick t fun u => ?_
  exact ite_eq_apply_ite (mapNext (arrive more tick)) rfl rfl

theorem readOutStep_arrive : readOutStep (arrive more tick s) = mapNext (arrive more tick) (readOutStep s) := by
  unfold readOutStep
  rw [arrive_micro]
  cases s.micro
  case start => rfl
  all_goals exact ite_eq_apply_ite (mapNext (arrive more tick)) rfl rfl

theorem appendByte_arrive (b : Byte) :
    appendByte b (arrive more tick s) = mapNext (arrive more tick) (appendByte b s) :=
  ite_eq_apply_ite (mapNext (arrive more tick)) (ite_eq_apply_ite (mapNext (arrive more tick)) rfl rfl) rfl

end

/-! ### What a step of DRAIN does (R150, R151, R155, R181) -/

section
variable {s : State} {b : Byte} {rest : List Byte}

theorem drainStep_empty (hrx : s.rx = []) : drainStep s = .next (enter .poll s) := by
  simp only [drainStep, hrx]

theorem drainStep_byte (hrx : s.rx = b :: rest) (hb : b ≠ newline) :
    drainStep s = appendByte b { s with rx := rest } := by
  simp only [drainStep, hrx, if_neg hb]

theorem drainStep_command {i : Instr} (hrx : s.rx = newline :: rest) (hd : decodeLine (lineContent s) = .run i) :
    drainStep s = issue i { s with rx := rest } := by
  have hd' : decodeLine (lineContent { s with rx := rest }) = .run i := hd
  simp only [drainStep, hrx, if_pos, hd']

theorem drainStep_ignored {r : Reject} (hrx : s.rx = newline :: rest) (hd : decodeLine (lineContent s) = .reject r) :
    drainStep s = .next { s with rx := rest, lineLen := 0 } := by
  have hd' : decodeLine (lineContent { s with rx := rest }) = .reject r := hd
  simp only [drainStep, hrx, if_pos, hd', ignoreLine_eq]

end

/-! ### DRAIN with a byte left, POLL without a tick -/

section
variable {more : List Byte} {s : State} (tick : Bool)

theorem fetchedCommand_arrive (h : s.rx = [] → more = []) : fetchedCommand (arrive more tick s) = fetchedCommand s := by
  unfold fetchedCommand
  rw [arrive_rx]
  cases hrx : s.rx
  case nil => rw [h hrx]; rfl
  case cons => rfl

theorem drainStep_arrive (h : s.rx = [] → more = []) :
    drainStep (arrive more tick s) = mapNext (arrive more tick) (drainStep s) := by
  cases hrx : s.rx
  case nil =>
    obtain rfl := h hrx
    rw [drainStep_empty hrx, drainStep_empty (by simp [hrx])]
    rfl
  case cons b rest =>
    have hrx' : (arrive more tick s).rx = b :: (rest ++ more) := by simp [hrx]
    by_cases hb : b = newline
    · subst hb
      cases hd : decodeLine (lineContent s)
      case run i =>
        rw [drainStep_command hrx hd, drainStep_command hrx' hd]
        exact issue_arrive more tick { s with rx := rest } i
      case reject r =>
        rw [drainStep_ignored hrx hd, drainStep_ignored hrx' hd]
        rfl
    · rw [drainStep_byte hrx hb, drainStep_byte hrx' hb]
      exact appendByte_arrive more tick { s with rx := rest } b

theorem pollStep_arrive : pollStep (arrive more false s) = arrive more false (pollStep s) := by
  simp [pollStep_eq, arrive]

end

section
variable {more : List Byte} {tick : Bool} {s : State}

theorem Unseen.fetched (h : Unseen more tick s) : fetched (arrive more tick s) = Machine.fetched s := by
  unfold Machine.fetched
  rw [arrive_phase]
  cases hp : s.phase
  case drain => exact fetchedCommand_arrive tick (h.drain hp)
  all_goals rfl

theorem Unseen.consumed (h : Unseen more tick s) :
    consumed (arrive more tick s) = arrive more tick (Machine.consumed s) := by
  unfold Machine.consumed
  rw [arrive_phase]
  cases hp : s.phase
  case drain =>
    have htail : (s.rx ++ more).tail = s.rx.tail ++ more := by
      cases hrx : s.rx
      case nil => rw [h.drain hp hrx]; rfl
      case cons => rfl
    simp [arrive, htail]
  all_goals rfl

theorem Unseen.internalStep (h : Unseen more tick s) :
    internalStep (arrive more tick s) = mapNext (arrive more tick) (Machine.internalStep s) := by
  unfold Machine.internalStep
  rw [arrive_phase]
  cases hp : s.phase
  case drain => exact drainStep_arrive tick (h.drain hp)
  case poll =>
    obtain rfl := h.poll hp
    exact congrArg _ pollStep_arrive
  case bTrig => exact waitStep_arrive more tick s .bFill
  case bFill => exact fillStep_arrive more tick s
  case bXmit => exact readOutStep_arrive more tick s
  case cTrig => exact waitStep_arrive more tick s .cRead
  case cRead => exact advanceOne_arrive more tick s
  case cXmit => rfl

/-- R51: what arrives unseen before the CORE's step is as if it arrived after it. -/
theorem Unseen.coreStep (h : Unseen more tick s) :
    coreStep (arrive more tick s) = mapNext (arrive more tick) (Machine.coreStep s) := by
  unfold Machine.coreStep
  rw [arrive_txHeld]
  cases s.txHeld
  case cons b held => exact completePush_arrive more tick s b held
  case nil =>
    dsimp only
    rw [h.fetched, h.consumed]
    cases Machine.fetched s
    case some i => exact issue_arrive more tick (Machine.consumed s) i
    case none => exact h.internalStep

end

/-- Settles O57: a byte is unseen outside DRAIN and behind a byte that is left, a tick outside POLL. -/
theorem arrivalsDoNotDisturbTheCore : Obligations.ArrivalsDoNotDisturbTheCore := by
  intro s b
  rw [hostSends_eq_arrive, tickArrives_eq_arrive]
  refine ⟨fun hbyte => Unseen.coreStep ⟨fun hp hrx => ?_, fun _ => rfl⟩,
    fun htick => Unseen.coreStep ⟨fun _ _ => rfl, fun hp => absurd hp htick⟩⟩
  rcases hbyte with hp' | hrx'
  · exact absurd hp hp'
  · exact absurd hrx hrx'

end Sys2Proof.Machine
end

section
/-! PROOFS. O47: a tick transition reads only the entries it wrote (20_memory.md R42). -/

namespace Sys2Proof.Machine

/-- Entries that a run of writes from index 0 covers read the same, whatever the store held before. -/
theorem Memory.read_writeFrom_covered {w : Nat} {m m' : Memory w} (hm : Memory.wf m) (hm' : Memory.wf m')
    {vs : List (BitVec w)} {i : Nat} (hi : i < vs.length) :
    Memory.read (Memory.writeFrom m 0 vs) i = Memory.read (Memory.writeFrom m' 0 vs) i := by
  rw [Memory.read_writeFrom vs m hm, Memory.read_writeFrom vs m' hm']
  simp [hi]

/-- A read-out sends what the entries below `length` read (R124). -/
theorem frameBytes_congr {b b' : Memory 10} {length : Nat}
    (h : ∀ i < length, Memory.read b i = Memory.read b' i) : frameBytes b length = frameBytes b' length := by
  refine List.flatMap_congr fun i hi => ?_
  simp only [entryBytes, h i (List.mem_range.mp hi)]

/-- The state with another content of the frame store. -/
def withBuf (b : Memory 10) (s : State) : State := { s with buf := b }

/-- The state after an edge-mode wait with result `r`: the model's own update, named. -/
def waited (s : State) (r : WaitResult) : State :=
  { takeDraws r.reads s with trigPrev := r.prev, trigCurr := r.curr, retryCnt := r.reads, trigOutcome := r.outcome }

theorem wholeWait_free {s : State} (hm : s.trigMode = .free) :
    wholeWait s = some { s with trigOutcome := .satisfied } := by
  simp only [wholeWait, hm]

theorem wholeWait_edge {s : State} (hm : s.trigMode ≠ .free) :
    wholeWait s = (tedWait s.trigMode s.trigLevel s.params.retryLimit s.adcDraws).map (waited s) := by
  unfold wholeWait
  split
  · exact absurd ‹_› hm
  · rfl

/-- The trigger wait does not read the frame store (R106). -/
theorem wholeWait_withBuf (b : Memory 10) (s : State) : wholeWait (withBuf b s) = (wholeWait s).map (withBuf b) := by
  by_cases hm : s.trigMode = .free
  · have hm' : (withBuf b s).trigMode = .free := hm
    rw [wholeWait_free hm, wholeWait_free hm']
    rfl
  · have hm' : (withBuf b s).trigMode ≠ .free := hm
    rw [wholeWait_edge hm, wholeWait_edge hm', Option.map_map]
    rfl

/-- The trigger wait does not write it. -/
theorem wholeWait_buf {s w : State} (h : wholeWait s = some w) : w.buf = s.buf := by
  by_cases hm : s.trigMode = .free
  · rw [wholeWait_free hm] at h
    cases h
    rfl
  · rw [wholeWait_edge hm] at h
    obtain ⟨r, -, rfl⟩ := Option.map_eq_some_iff.mp h
    rfl

/-- What a Burst transition sends once its wait has ended. -/
def burstSent (w : State) : Option (List Byte) :=
  (wholeFill w).map fun f => if sendsFrame f then f.tx ++ frameBytes f.buf f.burstLength else f.tx

theorem tickBurst_tx (s : State) : (tickBurst s).map (·.tx) = (wholeWait s).bind burstSent := by
  unfold tickBurst
  cases wholeWait s
  case none => rfl
  case some w =>
    unfold burstSent
    dsimp only [Option.bind_some]
    cases wholeFill w
    case none => rfl
    case some f => exact congrArg some (apply_ite (fun t : State => t.tx) _ _ _)

/-- R184, R122: the fill writes every entry that the read-out sends. -/
theorem burstSent_withBuf {w : State} (hw : Memory.wf w.buf) {b : Memory 10} (hb : Memory.wf b) :
    burstSent (withBuf b w) = burstSent w := by
  unfold burstSent wholeFill withBuf
  dsimp only
  split
  · rename_i hlen
    have hframe : frameBytes (Memory.writeFrom b 0 (w.adcDraws.take w.burstLength)) w.burstLength =
        frameBytes (Memory.writeFrom w.buf 0 (w.adcDraws.take w.burstLength)) w.burstLength :=
      frameBytes_congr fun i hi => Memory.read_writeFrom_covered hb hw (by simp; omega)
    simp [hframe, sendsFrame]
  · rfl

/-- What a Continuous transition sends once its wait, if it makes one, has ended. -/
def continuousSent (w : State) : Option (List Byte) :=
  (wholeAdvance w).map fun a => if a.runState = .stop then a.tx else (wholeSend a).tx

theorem tickContinuous_tx (s : State) :
    (tickContinuous s).map (·.tx) = (if s.frameCount = 0 then wholeWait s else some s).bind continuousSent := by
  unfold tickContinuous
  cases (if s.frameCount = 0 then wholeWait s else some s)
  case none => rfl
  case some w =>
    unfold continuousSent
    dsimp only [Option.bind_some]
    cases wholeAdvance w
    case none => rfl
    case some a => exact congrArg some (apply_ite (fun t : State => t.tx) _ _ _)

/-- The pair sent is that of the live sample, entry 0 (R187, R188). -/
theorem wholeSend_tx (s : State) : (wholeSend s).tx = s.tx ++
    [byte1 (Memory.read s.buf 0), byte2 (Memory.read s.buf 0) true (decide (s.params.nframe ≤ s.frameCount))] := by
  unfold wholeSend
  dsimp only
  split <;> rfl

/-- R123: the read writes the one live sample that is sent. -/
theorem continuousSent_withBuf {w : State} (hw : Memory.wf w.buf) {b : Memory 10} (hb : Memory.wf b) :
    continuousSent (withBuf b w) = continuousSent w := by
  unfold continuousSent wholeAdvance
  rw [show (withBuf b w).adcDraws = w.adcDraws from rfl]
  cases w.adcDraws
  case nil => rfl
  case cons v draws =>
    have hlive : Memory.read (Memory.write b 0 v) 0 = Memory.read (Memory.write w.buf 0 v) 0 := by
      rw [Memory.read_write_same b hb, Memory.read_write_same w.buf hw]
    simp [withBuf, wholeSend_tx, hlive]

/-- A wait and then `sent`, on two contents of the frame store that `sent` does not tell apart. -/
theorem wholeWait_bind_withBuf {s : State} {b : Memory 10} {sent : State → Option (List Byte)}
    (hsent : ∀ w : State, w.buf = s.buf → sent (withBuf b w) = sent w) :
    (wholeWait (withBuf b s)).bind sent = (wholeWait s).bind sent := by
  rw [wholeWait_withBuf, Option.bind_map]
  exact Option.bind_congr fun w hw => hsent w (wholeWait_buf hw)

/-- Settles O47: a burst fills every entry it sends, and a continuous transition writes its one live sample, before reading. -/
theorem staleEntriesAreNeverSent : Obligations.StaleEntriesAreNeverSent := by
  intro s b hs hb
  change (tickBurst (withBuf b s)).map _ = _ ∧ (tickContinuous (withBuf b s)).map _ = _
  rw [tickBurst_tx, tickBurst_tx, tickContinuous_tx, tickContinuous_tx]
  constructor
  case left => exact wholeWait_bind_withBuf fun w hw => burstSent_withBuf (hw ▸ hs) hb
  case right =>
    by_cases hc : s.frameCount = 0
    · rw [if_pos hc, if_pos (show (withBuf b s).frameCount = 0 from hc)]
      exact wholeWait_bind_withBuf fun w hw => continuousSent_withBuf (hw ▸ hs) hb
    · rw [if_neg hc, if_neg (show (withBuf b s).frameCount ≠ 0 from hc)]
      exact continuousSent_withBuf hs hb

end Sys2Proof.Machine
end

section
/-! PROOFS. The line decoder by its letters (30_encoding.md R61 to R64, R154): one equation for each letter, and which argument
each of them runs. -/

namespace Sys2Proof.Machine

/-! ### One equation for each letter (R61) -/

theorem decodePair_C (arg : Byte) : decodePair 0x43#8 arg = withDigit 2 3 arg .setContinuousMode := rfl
theorem decodePair_B (arg : Byte) : decodePair 0x42#8 arg = withDigit 2 3 arg .setBurstMode := rfl
theorem decodePair_R (arg : Byte) : decodePair 0x52#8 arg = decodeRunState arg := rfl
theorem decodePair_T (arg : Byte) : decodePair 0x54#8 arg = decodeTriggerMode arg := rfl
theorem decodePair_G (arg : Byte) : decodePair 0x47#8 arg = withDigit 1 1 arg .setAuxOutput := rfl
theorem decodePair_A (arg : Byte) : decodePair 0x41#8 arg = withDigit 2 3 arg .setChannel := rfl

/-- The six letters, in the order in which the decoder tries them. -/
theorem letterDefined_iff {op : Byte} : WellFormed.letterDefined op = true ↔
    op = 0x43#8 ∨ op = 0x42#8 ∨ op = 0x52#8 ∨ op = 0x54#8 ∨ op = 0x47#8 ∨ op = 0x41#8 := by
  simp [WellFormed.letterDefined, or_assoc]

/-- R64 (b): any other letter is rejected, whatever its argument. -/
theorem decodePair_undefined {op : Byte} (h : ¬WellFormed.letterDefined op = true) (arg : Byte) :
    decodePair op arg = .reject .unrecognizedCommand := by
  simp only [letterDefined_iff, not_or] at h
  obtain ⟨hC, hB, hR, hT, hG, hA⟩ := h
  simp only [decodePair, if_neg hC, if_neg hB, if_neg hR, if_neg hT, if_neg hG, if_neg hA]

/-! ### The arguments (R62, R63) -/

/-- R62: the digit of an operand of at most two bits. -/
theorem toNat_encodeDigit {w : Nat} (hw : w ≤ 2) (d : BitVec w) : (encodeDigit d).toNat = 0x30 + d.toNat := by
  have hd : d.toNat < 4 := d.isLt.trans_le (Nat.pow_le_pow_right (by decide) hw)
  simp only [encodeDigit, digitZero, BitVec.toNat_add, BitVec.toNat_ofNat]
  omega

/-- A field that holds all digits of its domain: the argument runs exactly the operand whose digit it is (R62). -/
theorem withDigit_run {w dmax : Nat} {arg : Byte} {form : BitVec w → Instr} {i : Instr} (hw : w ≤ 2)
    (hmax : dmax + 1 = 2 ^ w) : withDigit w dmax arg form = .run i ↔ ∃ d, encodeDigit d = arg ∧ form d = i := by
  constructor
  · intro h
    unfold withDigit at h
    split at h <;> cases h
    rename_i n hn
    obtain ⟨hle, harg⟩ := digit?_some.mp hn
    have hlt : n < 2 ^ w := by omega
    refine ⟨BitVec.ofNat w n, BitVec.eq_of_toNat_eq ?_, rfl⟩
    rw [toNat_encodeDigit hw, BitVec.toNat_ofNat, Nat.mod_eq_of_lt hlt, harg]
  · rintro ⟨d, rfl, rfl⟩
    have hle : d.toNat ≤ dmax := by have := d.isLt; omega
    simp [withDigit, digit?_some.mpr ⟨hle, toNat_encodeDigit hw d⟩]

/-- R62: an argument is run exactly when it is a digit of the domain. -/
theorem withDigit_accepts {w dmax : Nat} {arg : Byte} {form : BitVec w → Instr} :
    (∃ i, withDigit w dmax arg form = .run i) ↔ 0x30 ≤ arg.toNat ∧ arg.toNat ≤ 0x30 + dmax := by
  rw [← not_iff_not, ← digit?_none]
  unfold withDigit
  cases digit? dmax arg <;> simp

theorem decodeRunState_eq (arg : Byte) : decodeRunState arg =
    if arg = 0x30#8 then .run .setRunStateStop
    else if arg = 0x31#8 then .run .setRunStateRun
    else if arg = 0x32#8 then .run .setRunStateSingle
    else .reject .unrecognizedArgument := by
  revert arg
  decide

/-- R62: `R` takes the digits 0 to 2. -/
theorem decodeRunState_accepts {arg : Byte} :
    (∃ i, decodeRunState arg = .run i) ↔ 0x30 ≤ arg.toNat ∧ arg.toNat ≤ 0x32 := by
  rw [← not_iff_not, ← digit?_none (dmax := 2)]
  unfold decodeRunState
  cases digit? 2 arg
  case none => simp
  case some d => match d with | 0 | 1 | _ + 2 => simp

/-- R63: `T` takes the letters P, N and F. -/
theorem decodeTriggerMode_accepts {arg : Byte} :
    (∃ i, decodeTriggerMode arg = .run i) ↔ arg = 0x50#8 ∨ arg = 0x4e#8 ∨ arg = 0x46#8 := by
  unfold decodeTriggerMode
  split_ifs <;> simp [*]

end Sys2Proof.Machine
end

section
/-! PROOFS. O1: a line decodes exactly to the command it begins with (30_encoding.md R60 to R63, 43_protocol_codec.md R154). -/

namespace Sys2Proof.Machine

/-- A command is two bytes, its letter and its argument (R60). -/
theorem encode_command {i : Instr} (hi : i.stream = .rx) : ∃ op arg, encode i = [op, arg] := by
  cases i <;> cases hi <;> exact ⟨_, _, rfl⟩

/-- R62: a digit argument runs the command whose encoding ends with it. -/
theorem encode_of_withDigit {w dmax : Nat} {op arg : Byte} {form : BitVec w → Instr} {i : Instr} (hw : w ≤ 2)
    (hmax : dmax + 1 = 2 ^ w) (hform : ∀ d, encode (form d) = [op, encodeDigit d])
    (h : withDigit w dmax arg form = .run i) : encode i = [op, arg] := by
  obtain ⟨d, rfl, rfl⟩ := (withDigit_run hw hmax).mp h
  exact hform d

theorem encode_of_decodeRunState {arg : Byte} {i : Instr} (h : decodeRunState arg = .run i) : encode i = [0x52#8, arg] := by
  rw [decodeRunState_eq] at h
  split_ifs at h with h0 h1 h2 <;> cases h
  · exact h0 ▸ rfl
  · exact h1 ▸ rfl
  · exact h2 ▸ rfl

theorem encode_of_decodeTriggerMode {arg : Byte} {i : Instr} (h : decodeTriggerMode arg = .run i) :
    encode i = [0x54#8, arg] := by
  unfold decodeTriggerMode at h
  split_ifs at h with hP hN hF <;> cases h
  · exact hP ▸ rfl
  · exact hN ▸ rfl
  · exact hF ▸ rfl

/-- R61 to R63: what a letter and an argument run is the command that they encode. -/
theorem encode_of_decodePair {op arg : Byte} {i : Instr} (h : decodePair op arg = .run i) : encode i = [op, arg] := by
  by_cases hop : WellFormed.letterDefined op = true
  case neg => simp [decodePair_undefined hop] at h
  rcases letterDefined_iff.mp hop with rfl | rfl | rfl | rfl | rfl | rfl
  · exact encode_of_withDigit (by decide) (by decide) (fun _ => rfl) h
  · exact encode_of_withDigit (by decide) (by decide) (fun _ => rfl) h
  · exact encode_of_decodeRunState h
  · exact encode_of_decodeTriggerMode h
  · exact encode_of_withDigit (by decide) (by decide) (fun _ => rfl) h
  · exact encode_of_withDigit (by decide) (by decide) (fun _ => rfl) h

/-- Every command comes back from its encoding, with every operand, whatever follows it (R154). -/
theorem decodeLine_encode {i : Instr} (hi : i.stream = .rx) (rest : List Byte) : decodeLine (encode i ++ rest) = .run i := by
  cases i <;> cases hi
  case setContinuousMode d => exact (withDigit_run (by decide) (by decide)).mpr ⟨d, rfl, rfl⟩
  case setBurstMode d => exact (withDigit_run (by decide) (by decide)).mpr ⟨d, rfl, rfl⟩
  case setAuxOutput d => exact (withDigit_run (by decide) (by decide)).mpr ⟨d, rfl, rfl⟩
  case setChannel d => exact (withDigit_run (by decide) (by decide)).mpr ⟨d, rfl, rfl⟩
  all_goals rfl

/-- Fewer than two bytes run nothing (R64 (a), (c)). -/
theorem exists_pair_of_decodeLine {content : List Byte} {i : Instr} (h : decodeLine content = .run i) :
    ∃ op arg rest, content = op :: arg :: rest ∧ decodePair op arg = .run i := by
  match content with
  | [] => cases h
  | [op] => rw [decodeLine] at h; split_ifs at h
  | op :: arg :: rest => exact ⟨op, arg, rest, rfl, h⟩

/-- Settles O1: the letter and the argument decide, and they are the encoding. -/
theorem lineDecodesExactlyItsEncoding : Obligations.LineDecodesExactlyItsEncoding := by
  intro content i
  constructor
  case mp =>
    intro h
    obtain ⟨op, arg, rest, rfl, hpair⟩ := exists_pair_of_decodeLine h
    exact ⟨decodeLine_stream h, rest, by simp [encode_of_decodePair hpair]⟩
  case mpr =>
    rintro ⟨hi, rest, rfl⟩
    exact decodeLine_encode hi rest

end Sys2Proof.Machine
end

section
/-! PROOFS. O4: the well-formed lines are those that dispatch a command (30_encoding.md R60 to R65). -/

namespace Sys2Proof.Machine

/-- The argument domain of each letter is what its decoder runs (R62, R63). -/
theorem argumentInDomain_iff {op : Byte} (hop : WellFormed.letterDefined op = true) (arg : Byte) :
    WellFormed.argumentInDomain op arg = true ↔ ∃ i, decodePair op arg = .run i := by
  rcases letterDefined_iff.mp hop with rfl | rfl | rfl | rfl | rfl | rfl
  · rw [decodePair_C, withDigit_accepts]; simp [WellFormed.argumentInDomain]
  · rw [decodePair_B, withDigit_accepts]; simp [WellFormed.argumentInDomain]
  · rw [decodePair_R, decodeRunState_accepts]; simp [WellFormed.argumentInDomain]
  · rw [decodePair_T, decodeTriggerMode_accepts]; simp [WellFormed.argumentInDomain, or_assoc]
  · rw [decodePair_G, withDigit_accepts]; simp [WellFormed.argumentInDomain]
  · rw [decodePair_A, withDigit_accepts]; simp [WellFormed.argumentInDomain]

/-- R60, R61: the letter and the argument are in order exactly when the line runs a command. -/
theorem letterAndArgument_iff (content : List Byte) :
    WellFormed.letterAndArgument content = true ↔ ∃ i, decodeLine content = .run i := by
  match content with
  | [] => simp [WellFormed.letterAndArgument, decodeLine]
  | [op] =>
    have hnone : ¬∃ i, decodeLine [op] = .run i := by
      rintro ⟨i, h⟩
      obtain ⟨_, _, _, hcontent, -⟩ := exists_pair_of_decodeLine h
      simp at hcontent
    simpa [WellFormed.letterAndArgument] using hnone
  | op :: arg :: rest =>
    rw [WellFormed.letterAndArgument, Bool.and_eq_true, decodeLine]
    by_cases hop : WellFormed.letterDefined op = true
    case pos => rw [argumentInDomain_iff hop, and_iff_right hop]
    case neg => simp [hop, decodePair_undefined hop]

/-- Settles O4: within the length and without a newline, only the letter and the argument are left to check. -/
theorem wellFormedLinesAreTheDispatchedOnes : Obligations.WellFormedLinesAreTheDispatchedOnes := by
  intro content hlength hnewline
  have hlen : WellFormed.lengthOk content = true := decide_eq_true hlength
  have hterm : WellFormed.noTerminator content = true := by
    simp only [WellFormed.noTerminator, List.all_eq_true, bne_iff_ne]
    exact fun b hb hb' => hnewline (hb' ▸ hb)
  rw [wellFormed, WellFormed.line, hlen, hterm]
  exact letterAndArgument_iff content

end Sys2Proof.Machine
end

section
/-! PROOFS. O5, O6: the words of the opcode table (30_encoding.md R73). -/

namespace Sys2Proof.Machine

/-- The content of a 16-bit word is its two bytes, the high one first (R73; log 11). -/
theorem tableLine_append (op arg : Byte) : tableLine (op ++ arg : BitVec 16).toNat = [op, arg] := by
  have hw : (op ++ arg : BitVec 16).toNat = op.toNat * 256 + arg.toNat := by
    rw [BitVec.toNat_append, ← Nat.shiftLeft_add_eq_or_of_lt arg.isLt, Nat.shiftLeft_eq]
  have hop := op.isLt
  have harg := arg.isLt
  simp only [tableLine, hw, List.cons.injEq, and_true]
  constructor <;> apply BitVec.eq_of_toNat_eq <;> rw [BitVec.toNat_ofNat] <;> omega

theorem decodeTableWord_append (op arg : Byte) :
    decodeTableWord 16 (op ++ arg : BitVec 16).toNat = (decodePair op arg).instr? := by
  rw [decodeTableWord, if_pos rfl, tableLine_append]
  rfl

/-- A word is its two bytes. -/
theorem exists_word_append (w : BitVec 16) : ∃ op arg : Byte, w = op ++ arg := by
  have hfields : w.extractLsb' 8 8 ++ w.extractLsb' 0 8 = w.extractLsb' 0 (8 + 8) :=
    BitVec.extractLsb'_append_extractLsb'_eq_extractLsb' rfl
  exact ⟨w.extractLsb' 8 8, w.extractLsb' 0 8, (hfields.trans BitVec.extractLsb'_eq_self).symm⟩

/-- Two words are equal byte by byte. -/
theorem append_inj {op arg a b : Byte} : op ++ arg = a ++ b ↔ op = a ∧ arg = b := by
  constructor
  · intro h
    have hhigh := congrArg (BitVec.extractLsb' 8 8) h
    have hlow := congrArg (BitVec.extractLsb' 0 8) h
    rw [BitVec.extractLsb'_append_eq_left, BitVec.extractLsb'_append_eq_left] at hhigh
    rw [BitVec.extractLsb'_append_eq_right, BitVec.extractLsb'_append_eq_right] at hlow
    exact ⟨hhigh, hlow⟩
  · rintro ⟨rfl, rfl⟩
    rfl

/-- A row whose mask keeps the whole letter: the letter is the row's, and the masked argument is. -/
theorem masked_append_eq_iff {op arg mask a b : Byte} :
    (op ++ arg) &&& (0xff#8 ++ mask) = a ++ b ↔ op = a ∧ arg &&& mask = b := by
  rw [BitVec.and_append, append_inj, show (0xff#8 : Byte) = BitVec.allOnes 8 from rfl, BitVec.and_allOnes]

/-- A digit of four as its row writes it: the masked byte matches, and the operand is the field (R62, R73). -/
theorem digit?_three_eq (arg : Byte) :
    digit? 3 arg = if arg &&& 0xfc#8 = 0x30#8 then some (arg.extractLsb' 0 2).toNat else none := by
  revert arg
  decide

/-- A digit of two as its row writes it. -/
theorem digit?_one_eq (arg : Byte) :
    digit? 1 arg = if arg &&& 0xfe#8 = 0x30#8 then some (arg.extractLsb' 0 1).toNat else none := by
  revert arg
  decide

@[simp] theorem instr?_run (i : Instr) : (Decoded.run i).instr? = some i := rfl
@[simp] theorem instr?_reject (r : Reject) : (Decoded.reject r).instr? = none := rfl

/-- The digit operand that a row's mask leaves is the row's field, the low bits of the word. -/
theorem withDigit_instr? {w dmax : Nat} {arg mask : Byte} {form : BitVec w → Instr} (op : Byte) (hw : w ≤ 8)
    (hdigit : digit? dmax arg = if arg &&& mask = 0x30#8 then some (arg.extractLsb' 0 w).toNat else none) :
    (withDigit w dmax arg form).instr? =
      if arg &&& mask = 0x30#8 then some (form ((op ++ arg).extractLsb' 0 w)) else none := by
  rw [withDigit, hdigit, BitVec.extractLsb'_append_eq_of_add_le (by omega)]
  split_ifs
  case pos => simp only [instr?_run, BitVec.ofNat_toNat, BitVec.setWidth_eq]
  case neg => rfl

/-- The command rows of the table, each as its letter and its masked argument. -/
theorem decodePair_instr? (op arg : Byte) : (decodePair op arg).instr? =
    if op = 0x43#8 ∧ arg &&& 0xfc#8 = 0x30#8 then some (.setContinuousMode ((op ++ arg).extractLsb' 0 2))
    else if op = 0x42#8 ∧ arg &&& 0xfc#8 = 0x30#8 then some (.setBurstMode ((op ++ arg).extractLsb' 0 2))
    else if op = 0x52#8 ∧ arg = 0x30#8 then some .setRunStateStop
    else if op = 0x52#8 ∧ arg = 0x31#8 then some .setRunStateRun
    else if op = 0x52#8 ∧ arg = 0x32#8 then some .setRunStateSingle
    else if op = 0x54#8 ∧ arg = 0x50#8 then some .setTriggerModePositive
    else if op = 0x54#8 ∧ arg = 0x4e#8 then some .setTriggerModeNegative
    else if op = 0x54#8 ∧ arg = 0x46#8 then some .setTriggerModeFree
    else if op = 0x47#8 ∧ arg &&& 0xfe#8 = 0x30#8 then some (.setAuxOutput ((op ++ arg).extractLsb' 0 1))
    else if op = 0x41#8 ∧ arg &&& 0xfc#8 = 0x30#8 then some (.setChannel ((op ++ arg).extractLsb' 0 2))
    else none := by
  by_cases hop : WellFormed.letterDefined op = true
  case neg =>
    rw [decodePair_undefined hop]
    simp only [letterDefined_iff, not_or] at hop
    simp [hop]
  rcases letterDefined_iff.mp hop with rfl | rfl | rfl | rfl | rfl | rfl
  · rw [decodePair_C, withDigit_instr? 0x43#8 (by decide) (digit?_three_eq arg)]
    simp
  · rw [decodePair_B, withDigit_instr? 0x42#8 (by decide) (digit?_three_eq arg)]
    simp
  · rw [decodePair_R, decodeRunState_eq]
    simp [apply_ite Decoded.instr?]
  · rw [decodePair_T, decodeTriggerMode]
    simp [apply_ite Decoded.instr?]
  · rw [decodePair_G, withDigit_instr? 0x47#8 (by decide) (digit?_one_eq arg)]
    simp
  · rw [decodePair_A, withDigit_instr? 0x41#8 (by decide) (digit?_three_eq arg)]
    simp

/-- Settles O5: the `mask` and `match` of each row, byte by byte, are the letter and the argument that the decoder tests. -/
theorem commandWordsFollowTheTable : Obligations.CommandWordsFollowTheTable := by
  intro w
  obtain ⟨op, arg, rfl⟩ := exists_word_append w
  have masked (mask a b : Byte) : (op ++ arg) &&& (0xff#8 ++ mask) = a ++ b ↔ op = a ∧ arg &&& mask = b :=
    masked_append_eq_iff
  have whole (a b : Byte) : op ++ arg = a ++ b ↔ op = a ∧ arg = b := append_inj
  have hC : (op ++ arg) &&& 0xfffc#16 = 0x4330#16 ↔ _ := masked 0xfc#8 0x43#8 0x30#8
  have hB : (op ++ arg) &&& 0xfffc#16 = 0x4230#16 ↔ _ := masked 0xfc#8 0x42#8 0x30#8
  have hR0 : op ++ arg = 0x5230#16 ↔ _ := whole 0x52#8 0x30#8
  have hR1 : op ++ arg = 0x5231#16 ↔ _ := whole 0x52#8 0x31#8
  have hR2 : op ++ arg = 0x5232#16 ↔ _ := whole 0x52#8 0x32#8
  have hTP : op ++ arg = 0x5450#16 ↔ _ := whole 0x54#8 0x50#8
  have hTN : op ++ arg = 0x544e#16 ↔ _ := whole 0x54#8 0x4e#8
  have hTF : op ++ arg = 0x5446#16 ↔ _ := whole 0x54#8 0x46#8
  have hG : (op ++ arg) &&& 0xfffe#16 = 0x4730#16 ↔ _ := masked 0xfe#8 0x47#8 0x30#8
  have hA : (op ++ arg) &&& 0xfffc#16 = 0x4130#16 ↔ _ := masked 0xfc#8 0x41#8 0x30#8
  rw [decodeTableWord_append, decodePair_instr?]
  simp only [hC, hB, hR0, hR1, hR2, hTP, hTN, hTF, hG, hA]

/-- Settles O6: the words are evaluated. -/
theorem writtenOutWordsDecode : Obligations.WrittenOutWordsDecode := by
  refine ⟨?C2, ?R2, ?TN, ?A3, ?sampleHi, ?contLast, ?discard⟩ <;> decide

end Sys2Proof.Machine
end

section
/-! PROOFS. O2, O15: the wire bytes, decoded and pushed (30_encoding.md R67 to R72, 43_protocol_codec.md R142 to R145). -/

namespace Sys2Proof.Machine

/-- A byte of a known flag is that flag before its payload (R67). -/
theorem wire_of_flag {b : Byte} {n : Nat} (h : (wireFlag b).toNat = n) : wire (BitVec.ofNat 3 n) (wirePayload b) = b := by
  rw [← h, BitVec.ofNat_toNat, BitVec.setWidth_eq, wire_of_fields]

/-- R68, R72: what a byte's flag and payload run is the wire byte kind that they encode. -/
theorem encode_of_decodeWire {b : Byte} {i : Instr} (h : decodeWire b = .run i) : i.stream = .tx ∧ encode i = [b] := by
  have hbyte : ∀ n : Nat, (wireFlag b).toNat = n → [wire (BitVec.ofNat 3 n) (wirePayload b)] = [b] :=
    fun n hn => by rw [wire_of_flag hn]
  unfold decodeWire at h
  dsimp only at h
  split at h
  case h_6 hflag =>
    split_ifs at h with hp
    cases h
    have hdiscard := hbyte 6 hflag
    rw [hp] at hdiscard
    exact ⟨rfl, hdiscard⟩
  case h_7 => cases h
  all_goals
    cases h
    exact ⟨rfl, hbyte _ ‹_›⟩

/-- Every wire byte kind comes back from its byte, with every payload (R72). -/
theorem decodeWire_encode {b : Byte} {i : Instr} (hi : i.stream = .tx) (h : encode i = [b]) : decodeWire b = .run i := by
  cases i <;> cases hi <;> cases h <;> simp [decodeWire]

/-- Settles O2. -/
theorem wireByteDecodesExactlyItsEncoding : Obligations.WireByteDecodesExactlyItsEncoding :=
  fun _ _ => ⟨encode_of_decodeWire, fun ⟨hi, h⟩ => decodeWire_encode hi h⟩

/-- A wire byte kind with the transport ready: its encoding joins TX, and nothing else changes (R86). -/
theorem exec_wire_ready {i : Instr} {s : State} (hi : i.stream = .tx) (hs : TransportFree s) :
    exec i s = .next { s with tx := s.tx ++ encode i } := by
  cases i <;> cases hi <;> exact congrArg _ (txPush_ready hs.txReady hs.txHeld)

/-- Settles O15: the byte pushed is the encoding, and the encoding is the flag before the payload (R68). -/
theorem wireKindsPushTheirByte : Obligations.WireKindsPushTheirByte := by
  intro s p hs
  exact ⟨exec_wire_ready rfl hs, exec_wire_ready rfl hs, exec_wire_ready rfl hs, exec_wire_ready rfl hs,
    exec_wire_ready rfl hs, exec_wire_ready rfl hs⟩

end Sys2Proof.Machine
end

section
/-! PROOFS. A step of DRAIN: a byte stored, or the command of the line performed (43_protocol_codec.md R150 to R152). -/

namespace Sys2Proof.Machine

/-- R152, R153: the byte is stored, and the sixteenth empties the line. -/
theorem appendByte_eq {b : Byte} {s : State} (hl : s.lineLen < Config.lineMax) : appendByte b s = .next { s with
    line := Memory.write s.line s.lineLen b
    lineLen := if s.lineLen + 1 = Config.lineMax then 0 else s.lineLen + 1 } := by
  rw [appendByte, if_pos hl]
  by_cases hfull : s.lineLen + 1 = Config.lineMax
  case pos => simp [storeByte, raiseEvent, hfull]
  case neg => simp [storeByte, hfull]

/-- R150: in DRAIN a byte other than the newline performs no instruction; it joins the line. -/
theorem coreStep_store {b : Byte} {s : State} {rest : List Byte} (hh : s.txHeld = []) (hp : s.phase = .drain)
    (hrx : s.rx = b :: rest) (hb : b ≠ newline) (hl : s.lineLen < Config.lineMax) : coreStep s = .next { s with
      rx := rest
      line := Memory.write s.line s.lineLen b
      lineLen := if s.lineLen + 1 = Config.lineMax then 0 else s.lineLen + 1 } := by
  have hf : fetched s = none := by simp [fetched, fetchedCommand, hp, hrx, hb]
  have hi : internalStep s = drainStep s := by simp only [internalStep, hp]
  rw [coreStep_internal hh hf, hi, drainStep_byte hrx hb]
  exact appendByte_eq (s := { s with rx := rest }) hl

/-- A fetched instruction is performed on what fetching leaves, and retired (R30). -/
theorem coreStep_issue {s t : State} {i : Instr} (hh : s.txHeld = []) (hf : fetched s = some i)
    (hx : exec i (consumed s) = .next t) : coreStep s = .next (retire t) := by
  simp [coreStep, hh, hf, issue, hx]

/-- R151, R155: in DRAIN the newline performs the command of the line and is taken from RX. -/
theorem coreStep_dispatch {s t : State} {i : Instr} {rest : List Byte} (hh : s.txHeld = []) (hp : s.phase = .drain)
    (hrx : s.rx = newline :: rest) (hd : decodeLine (lineContent s) = .run i) (hx : exec i { s with rx := rest } = .next t) :
    coreStep s = .next (retire t) := by
  have hf : fetched s = some i := by rw [fetched_drain hp hrx, hd, instr?_run]
  have hc : consumed s = { s with rx := rest } := by rw [consumed_drain hp, hrx, List.tail_cons]
  exact coreStep_issue hh hf (hc ▸ hx)

/-- Every instruction has a meaning in every state (R168). -/
theorem exec_next (i : Instr) (s : State) : ∃ t, exec i s = .next t := by
  cases i <;> exact ⟨_, rfl⟩

theorem txPush_txHeld {s : State} (hs : TransportFree s) (b : Byte) : (txPush b s).txHeld = [] := by
  rw [txPush_ready hs.txReady hs.txHeld, hs.txHeld]

/-- With the transport ready no byte is held back (R86). -/
theorem exec_txHeld {i : Instr} {s t : State} (hs : TransportFree s) (h : exec i s = .next t) : t.txHeld = [] := by
  cases i <;> cases h
  case setContinuousMode | setBurstMode | setRunStateSingle => exact txPush_txHeld ⟨hs.txReady, hs.txHeld⟩ _
  case sampleHi | burstMid | burstLast | contMid | contLast | discard => exact txPush_txHeld hs _
  all_goals exact hs.txHeld

/-- In DRAIN a complete command empties the line (R151). -/
theorem retire_drain {t : State} (hp : t.phase = .drain) (hh : t.txHeld = []) : retire t = { t with lineLen := 0 } := by
  simp [retire, hh, retired_drain hp]

/-- The content of a line of two bytes, stored one after the other (R152). -/
theorem lineContent_pair {s : State} {m : Memory 8} {b0 b1 : Byte} (hm : Memory.wf m) (hlen : s.lineLen = 2)
    (hline : s.line = Memory.write (Memory.write m 0 b0) 1 b1) : lineContent s = [b0, b1] := by
  have h1 := Memory.read_write_same (Memory.write m 0 b0) (Memory.write_wf m hm 0 b0) 1 b1
  have h0 := Memory.read_write_other (Memory.write m 0 b0) 1 0 b1 (by decide)
  rw [Memory.read_write_same m hm] at h0
  simp [lineContent, hlen, hline, List.range_succ, h0, h1]

end Sys2Proof.Machine
end

section
/-! PROOFS. O23: a command line received byte by byte (30_encoding.md R60, 43_protocol_codec.md R150 to R152). -/

namespace Sys2Proof.Machine

/-- A letter that is not a newline and an argument that is none (R60 to R63): no byte of a command's content ends its line. -/
theorem newline_notMem_encode {i : Instr} (hi : i.stream = .rx) : newline ∉ encode i := by
  cases i <;> cases hi
  case setContinuousMode d | setBurstMode d | setAuxOutput d | setChannel d => revert d; decide
  all_goals decide

/-- R152: two bytes of a line that has begun empty, stored in two steps. -/
theorem runSteps_store_pair {s : State} {b0 b1 : Byte} {rest : List Byte} (hs : s.schedule = []) (hh : s.txHeld = [])
    (hp : s.phase = .drain) (hlen : s.lineLen = 0) (hrx : s.rx = b0 :: b1 :: rest) (hb0 : b0 ≠ newline)
    (hb1 : b1 ≠ newline) :
    runSteps 2 s = .next { s with
      rx := rest, line := Memory.write (Memory.write s.line 0 b0) 1 b1, lineLen := 2 } := by
  have step0 : coreStep s = .next { s with rx := b1 :: rest, line := Memory.write s.line 0 b0, lineLen := 1 } := by
    rw [coreStep_store hh hp hrx hb0 (by rw [hlen]; decide), hlen]
    rfl
  have step1 := coreStep_store (s := { s with rx := b1 :: rest, line := Memory.write s.line 0 b0, lineLen := 1 }) hh hp rfl
    hb1 (show 1 < Config.lineMax by decide)
  refine (runSteps_next 1 hs step0).trans (runSteps_next 0 ?_ step1)
  exact hs

/-- Settles O23: the letter and the argument are stored, and the newline performs what they decode to. -/
theorem receivedCommandLineIsPerformed : Obligations.ReceivedCommandLineIsPerformed := by
  intro s i rest hi hsched hfree hp hlen hwf hrx
  obtain ⟨op, arg, henc⟩ := encode_command hi
  have hnl := newline_notMem_encode hi
  rw [henc, List.mem_pair, not_or] at hnl
  obtain ⟨hop, harg⟩ := hnl
  have hrx' : s.rx = op :: arg :: newline :: rest := by simp [hrx, commandLine, henc]
  have hstore := runSteps_store_pair hsched hfree.txHeld hp hlen hrx' (Ne.symm hop) (Ne.symm harg)
  have hdec : decodeLine [op, arg] = .run i := by simpa [henc] using decodeLine_encode hi []
  obtain ⟨t, hx⟩ := exec_next i { s with rx := rest, line := Memory.write (Memory.write s.line 0 op) 1 arg, lineLen := 2 }
  refine ⟨_, t, hx, ?_⟩
  have hheld : t.txHeld = [] := by
    refine exec_txHeld ?_ hx
    exact ⟨hfree.txReady, hfree.txHeld⟩
  obtain ⟨-, -, -, -, -, -, -, -, hphase, -⟩ := exec_untouched hx
  rw [runSteps_add 2 1 hstore, ← retire_drain (hphase.trans hp) hheld]
  refine runSteps_next 0 hsched (coreStep_dispatch hfree.txHeld hp rfl ?_ hx)
  rw [lineContent_pair hwf rfl rfl]
  exact hdec

end Sys2Proof.Machine
end

section
/-! PROOFS. O22: a placed instruction word is performed next (30_encoding.md R73, 10_state.md R30; log 10). -/

namespace Sys2Proof.Machine

/-- The registers by which the instructions differ, and the TX stream that they write. -/
def written (s : State) : List Byte × AcquisitionMode × RunState × TriggerMode × BitVec 2 × BitVec 1 × BitVec 2 :=
  (s.tx, s.mode, s.runState, s.trigMode, s.channel, s.auxOut, s.rateIdx)

/-- The next step of `placed` performs `i` on a state that agrees with `s` in the registers written, with the rest of the
schedule and no byte held back. -/
def PerformsNext (placed s : State) (i : Instr) : Prop :=
  ∃ u t, exec i u = .next t ∧ step placed = .next (retire t) ∧ written u = written s ∧ u.txHeld = [] ∧
    u.schedule = s.schedule

theorem written_consumed (s : State) : written (consumed s) = written s := by
  rw [consumed_eq]
  rfl

/-- The CORE's turn first: what is fetched then is performed. -/
theorem performsNext_of_fetched {placed s : State} {i : Instr} (hs : placed.schedule = .core :: s.schedule)
    (hh : placed.txHeld = []) (hw : written placed = written s)
    (hf : fetched { placed with schedule := s.schedule } = some i) : PerformsNext placed s i := by
  obtain ⟨t, hx⟩ := exec_next i (consumed { placed with schedule := s.schedule })
  refine ⟨_, t, hx, ?_, (written_consumed _).trans hw, ?_, ?_⟩
  · rw [step_of_turn hs]
    exact coreStep_issue hh hf hx
  · rw [consumed_eq]
    exact hh
  · rw [consumed_eq]

theorem placeLine_performsNext {s : State} {b0 b1 : Byte} {i : Instr} (hline : Memory.wf s.line)
    (hd : decodePair b0 b1 = .run i) : PerformsNext (placeLine b0 b1 s) s i := by
  refine performsNext_of_fetched rfl rfl rfl ?_
  rw [fetched_drain (rest := s.rx) rfl rfl, lineContent_pair hline rfl rfl]
  exact congrArg Decoded.instr? hd

/-- Bits 9 to 5 of a sample that holds `p` there. -/
theorem hiInstr_append (p : BitVec 5) : hiInstr (p ++ 0#5) = .sampleHi p := by
  rw [hiInstr]
  exact congrArg _ BitVec.extractLsb'_append_eq_left

/-- Bits 4 to 0 of a sample that holds `p` there. -/
theorem extractLsb'_zero_append (p : BitVec 5) : (0#5 ++ p : Sample).extractLsb' 0 5 = p :=
  BitVec.extractLsb'_append_eq_right

section
variable {s : State} (p : BitVec 5) (hbuf : Memory.wf s.buf)
include hbuf

theorem placeByte1_performsNext : PerformsNext (placeByte1 p s) s (.sampleHi p) := by
  refine performsNext_of_fetched rfl rfl rfl ?_
  have hread := Memory.read_write_same s.buf hbuf 0 (p ++ 0#5)
  simp [fetched, fetchedContByte, placeByte1, placeAt, hread, hiInstr_append]

theorem placeContByte2_performsNext (last : Bool) :
    PerformsNext (placeContByte2 last p s) s (if last then .contLast p else .contMid p) := by
  refine performsNext_of_fetched rfl rfl rfl ?_
  have hread := Memory.read_write_same s.buf hbuf 0 (0#5 ++ p)
  cases last <;>
    simp [fetched, fetchedContByte, placeContByte2, placeAt, hread, loInstr, extractLsb'_zero_append, Params.nframe]

theorem placeBurstMid_performsNext : PerformsNext (placeBurstMid p s) s (.burstMid p) := by
  refine performsNext_of_fetched rfl rfl rfl ?_
  have hread := Memory.read_write_same s.buf hbuf 0 (0#5 ++ p)
  have hmore : ¬(1 = if s.burstLength ≤ 1 then 2 else s.burstLength) := by split <;> omega
  simp [fetched, fetchedBurstByte, placeBurstMid, placeAt, hread, loInstr, extractLsb'_zero_append, Params.nframe, hmore]

theorem placeBurstLast_performsNext {length : Nat} (hpos : 1 ≤ length) (hlen : length ≤ s.params.nframe) :
    PerformsNext (placeBurstLast length p s) s (.burstLast p) := by
  refine performsNext_of_fetched rfl rfl rfl ?_
  have hread := Memory.read_write_same s.buf hbuf (length - 1) (0#5 ++ p)
  have hin : length - 1 < s.params.nframe := by omega
  have hlast : length - 1 + 1 = length := by omega
  simp [fetched, fetchedBurstByte, placeBurstLast, placeAt, hread, loInstr, extractLsb'_zero_append, hin, hlast]

end

/-- The completion of the push in progress is the discard instruction on a transport that takes its byte. -/
theorem placeDiscard_performsNext (s : State) : PerformsNext (placeDiscard s) s .discard := by
  have hx := exec_wire_ready (i := .discard) (s := { placeDiscard s with schedule := s.schedule, txHeld := [] }) rfl
    ⟨rfl, rfl⟩
  exact ⟨_, _, hx, rfl, rfl, rfl, rfl⟩

/-- A wire byte of the table, placed in the phase that sends it. -/
theorem placeWireByte_performsNext {s : State} {b : Byte} {i : Instr} (hbuf : Memory.wf s.buf)
    (hd : decodeWire b = .run i) : PerformsNext (placeWireByte b s) s i := by
  have hi := (encode_of_decodeWire hd).1
  unfold placeWireByte
  rw [hd]
  cases i <;> cases hi
  case sampleHi p => exact placeByte1_performsNext p hbuf
  case burstMid p => exact placeBurstMid_performsNext p hbuf
  case burstLast p =>
    dsimp only
    split_ifs with hframe
    · exact placeBurstLast_performsNext p hbuf hframe.1 hframe.2
    · exact placeBurstLast_performsNext p hbuf le_rfl (Nat.succ_pos s.params.lastEntry)
  case contMid p => exact placeContByte2_performsNext p hbuf false
  case contLast p => exact placeContByte2_performsNext p hbuf true
  case discard => exact placeDiscard_performsNext s

theorem instr?_eq_some {d : Decoded} {i : Instr} : d.instr? = some i ↔ d = .run i := by
  cases d <;> simp

/-- An instruction word of the table, placed, whichever its width. -/
theorem withFetchWord_performsNext {s : State} {nbits w : Nat} {i : Instr} (hbuf : Memory.wf s.buf)
    (hline : Memory.wf s.line) (hd : decodeTableWord nbits w = some i) : PerformsNext (s.withFetchWord nbits w) s i := by
  unfold decodeTableWord at hd
  split_ifs at hd with h16 h8
  · subst h16
    exact placeLine_performsNext hline (instr?_eq_some.mp hd)
  · subst h8
    exact placeWireByte_performsNext hbuf (instr?_eq_some.mp hd)

/-- Settles O22: the line or the byte that is placed is what the next step fetches. -/
theorem placedWordIsPerformedNext : Obligations.PlacedWordIsPerformedNext := by
  intro s nbits w i hbuf hline hd
  obtain ⟨u, t, hx, hstep, hwritten, hheld, hsched⟩ := withFetchWord_performsNext hbuf hline hd
  simp only [written, Prod.mk.injEq] at hwritten
  obtain ⟨htx, hmode, hrun, htrig, hchannel, haux, hrate⟩ := hwritten
  exact ⟨u, t, hx, hstep, htx, hheld, hmode, hrun, htrig, hchannel, haux, hrate, hsched⟩

end Sys2Proof.Machine
end

section
/-! PROOFS. O58: ticks before a poll coalesce into one (40_ports_and_collaborators.md R87, 60_exceptions.md R211). -/

namespace Sys2Proof.Machine

/-- A run begins with its first step, whoever's turn it is. -/
theorem runSteps_of_step {s t : State} (k : Nat) (h : step s = .next t) : runSteps (k + 1) s = runSteps k t := by
  simp only [runSteps, h]

/-- R211: a tick on a set flag changes nothing, so the first of several ticks leaves what all of them leave. -/
theorem tickArrives_idempotent (s : State) : tickArrives (tickArrives s) = tickArrives s := rfl

/-- The tick source's turn: the flag is set, and the turn is used up (R87). -/
theorem step_tick {s : State} {rest : List Turn} (hs : s.schedule = .tickArrives :: rest) :
    step s = .next (tickArrives { s with schedule := rest }) :=
  step_of_turn hs

/-- Any positive number of ticks is one tick. -/
theorem runSteps_ticks (n : Nat) {s : State} {rest : List Turn}
    (hs : s.schedule = List.replicate (n + 1) .tickArrives ++ rest) :
    runSteps (n + 1) s = .next (tickArrives { s with schedule := rest }) := by
  induction n generalizing s with
  | zero => exact runSteps_of_step 0 (step_tick hs)
  | succ n ih =>
    calc runSteps (n + 1 + 1) s
        = runSteps (n + 1) (tickArrives { s with schedule := List.replicate (n + 1) .tickArrives ++ rest }) :=
          runSteps_of_step (n + 1) (step_tick hs)
      _ = .next (tickArrives (tickArrives { s with schedule := rest })) := ih rfl
      _ = .next (tickArrives { s with schedule := rest }) := by rw [tickArrives_idempotent]

/-- Settles O58: the run of ticks leaves what one tick leaves. -/
theorem ticksCoalesce : Obligations.TicksCoalesce :=
  fun _ n _ => runSteps_ticks n

end Sys2Proof.Machine
end

section
/-! PROOFS. O59: a byte held back by the transport (40_ports_and_collaborators.md R86, 70_reset_and_hazards.md R244; log 4). -/

namespace Sys2Proof.Machine

/-- With a byte held back, the CORE's step is the completion of its push, in every phase. -/
theorem coreStep_held {s : State} {b : Byte} {held : List Byte} (hh : s.txHeld = b :: held) :
    coreStep s = completePush b held s := by
  simp only [coreStep, hh]

theorem completePush_blocked {s : State} (b : Byte) (held : List Byte) (hr : s.txReady = false) :
    completePush b held s = .fault .transportHang := by
  simp [completePush, hr]

theorem completePush_ready {s : State} (b : Byte) (held : List Byte) (hr : s.txReady = true) :
    completePush b held s = .next (retire { s with tx := s.tx ++ [b], txHeld := held }) :=
  if_pos hr

/-- An instruction that leaves no byte held back is followed by what the sequencer does next. -/
theorem retire_of_txHeld_nil {s : State} (hh : s.txHeld = []) : retire s = retired s := by
  simp [retire, hh]

/-- Settles O59: the two answers of the transport to the held byte. -/
theorem heldByteWaitsForTheTransport : Obligations.HeldByteWaitsForTheTransport := by
  intro s b hh
  rw [coreStep_held hh]
  constructor
  · exact completePush_blocked b []
  · intro hr
    rw [completePush_ready b [] hr, retire_of_txHeld_nil rfl]

end Sys2Proof.Machine
end

section
/-! PROOFS. The edge predicates of the trigger_edge_detector (41_trigger_edge_detector.md R103, R104), and O34: their extreme
levels (R108). -/

namespace Sys2Proof.Machine

/-- R103: strict before, not strict after. -/
theorem edgeFires_risingEdge (level prev curr : Sample) :
    edgeFires .risingEdge level prev curr = true ↔ prev > level ∧ curr ≤ level := by
  simp [edgeFires, BitVec.lt_def, BitVec.le_def]

/-- R104: the mirror of R103. -/
theorem edgeFires_fallingEdge (level prev curr : Sample) :
    edgeFires .fallingEdge level prev curr = true ↔ prev < level ∧ curr ≥ level := by
  simp [edgeFires, BitVec.lt_def, BitVec.le_def]

/-- R107: both polarities are strict on the older sample, which stands at the level when a wait begins. -/
theorem edgeFires_at_level {m : TriggerMode} (hm : m ≠ .free) (level v : Sample) : edgeFires m level level v = false := by
  cases m with
  | free => exact absurd rfl hm
  | risingEdge => simp [edgeFires]
  | fallingEdge => simp [edgeFires]

/-- R109: a step up, or none, is no rising edge; the name says rising, the numbers fall. -/
theorem edgeFires_risingEdge_of_le {level prev curr : Sample} (h : prev ≤ curr) :
    edgeFires .risingEdge level prev curr = false := by
  rw [Bool.eq_false_iff, Ne, edgeFires_risingEdge]
  exact fun ⟨hprev, hcurr⟩ => BitVec.not_le.mpr hprev (BitVec.le_trans h hcurr)

theorem edgeFires_fallingEdge_of_ge {level prev curr : Sample} (h : prev ≥ curr) :
    edgeFires .fallingEdge level prev curr = false := by
  rw [Bool.eq_false_iff, Ne, edgeFires_fallingEdge]
  exact fun ⟨hprev, hcurr⟩ => BitVec.not_le.mpr hprev (BitVec.le_trans hcurr h)

/-- Settles O34: no sample is above 1023 or below 0, and at the extreme the other compare is an equality. -/
theorem extremeLevels : Obligations.ExtremeLevels := by
  intro prev curr
  simp only [Bool.eq_false_iff, Ne, edgeFires_risingEdge, edgeFires_fallingEdge]
  refine ⟨?_, and_congr_right fun _ => ?_, ?_, and_congr_right fun _ => ?_⟩
  all_goals bv_omega

end Sys2Proof.Machine
end

section
/-! PROOFS. O28 to O31: one step of the trigger wait (41_trigger_edge_detector.md R100 to R105). -/

namespace Sys2Proof.Machine

variable {s : State} {after : Phase}

/-- In a waiting phase the CORE's step is a step of the wait (R30). -/
theorem coreStep_wait (hw : (s.phase, after) ∈ waitPhases) (hh : s.txHeld = []) : coreStep s = waitStep after s := by
  simp only [waitPhases, List.mem_cons, Prod.mk.injEq, List.not_mem_nil, or_false] at hw
  rcases hw with ⟨hp, rfl⟩ | ⟨hp, rfl⟩
  all_goals
    rw [coreStep_internal hh (by simp only [fetched, hp])]
    simp only [internalStep, hp]

/-- Both phases that follow a wait begin with their initialisation. -/
theorem endWait_eq {p : Phase} (hw : (p, after) ∈ waitPhases) (o : TriggerOutcome) (s : State) :
    endWait o after s = { s with trigOutcome := o, phase := after, micro := .start } := by
  simp only [waitPhases, List.mem_cons, Prod.mk.injEq, List.not_mem_nil, or_false] at hw
  rcases hw with ⟨-, rfl⟩ | ⟨-, rfl⟩ <;> rfl

theorem waitStep_free (hm : s.trigMode = .free) : waitStep after s = .next (endWait .satisfied after s) := by
  simp only [waitStep, hm]

theorem waitStep_start (hm : s.trigMode ≠ .free) (hmi : s.micro = .start) : waitStep after s = .next (beginWait s) := by
  unfold waitStep
  rw [hmi]
  cases hmode : s.trigMode with
  | free => exact absurd hmode hm
  | _ => rfl

theorem waitStep_body (hm : s.trigMode ≠ .free) (hmi : s.micro = .body) : waitStep after s = waitIteration after s := by
  unfold waitStep
  rw [hmi]
  cases hmode : s.trigMode with
  | free => exact absurd hmode hm
  | _ => rfl

/-- R102 to R104: the read, the shift, the count, and then the compare. -/
theorem waitIteration_read {v : Sample} {draws : List Sample} (hc : s.retryCnt < s.params.retryLimit)
    (hd : s.adcDraws = v :: draws) :
    waitIteration after s = .next (if edgeFires s.trigMode s.trigLevel s.trigCurr v = true
      then endWait .satisfied after (shiftSample v (converted s draws)) else shiftSample v (converted s draws)) := by
  rw [waitIteration, if_pos hc, adcRead, hd]
  exact (apply_ite Host.Outcome.next _ _ _).symm

/-- R208: the read of an iteration that is never answered. -/
theorem waitIteration_stall (hc : s.retryCnt < s.params.retryLimit) (hd : s.adcDraws = []) :
    waitIteration after s = .fault .hardwareStall := by
  rw [waitIteration, if_pos hc, adcRead, hd]

/-- R105, R204: the event TriggerTimeout has no effect but the outcome. -/
theorem waitIteration_timeout (hc : s.params.retryLimit ≤ s.retryCnt) :
    waitIteration after s = .next (endWait .timedOut after s) := by
  rw [waitIteration, if_neg (Nat.not_lt.mpr hc)]
  rfl

/-- Settles O28. -/
theorem freeWaitReadsNothing : Obligations.FreeWaitReadsNothing := by
  rintro s _ after hw rfl hh hm
  rw [coreStep_wait hw hh, waitStep_free hm, endWait_eq hw]

/-- Settles O29. -/
theorem edgeWaitBeginsAtTheLevel : Obligations.EdgeWaitBeginsAtTheLevel := by
  rintro s _ after hw rfl hh hm hmi
  rw [coreStep_wait hw hh, waitStep_start hm hmi]
  rfl

/-- Settles O30: one iteration for both polarities, and then each one's own compare. -/
theorem edgeIterationReadsThenCompares : Obligations.EdgeIterationReadsThenCompares := by
  rintro s _ after v draws hw rfl hh hmi hc hd
  have hstep (hm : s.trigMode ≠ .free) :=
    (coreStep_wait hw hh).trans ((waitStep_body hm hmi).trans (waitIteration_read hc hd))
  constructor
  · intro hm
    have hread := hstep (by simp [hm])
    simp only [hm, edgeFires_risingEdge, endWait_eq hw] at hread
    exact hread
  · intro hm
    have hread := hstep (by simp [hm])
    simp only [hm, edgeFires_fallingEdge, endWait_eq hw] at hread
    exact hread

/-- Settles O31. -/
theorem exhaustedBudgetTimesOut : Obligations.ExhaustedBudgetTimesOut := by
  rintro s _ after hw rfl hh hm hmi hc
  rw [coreStep_wait hw hh, waitStep_body hm hmi, waitIteration_timeout hc.ge, endWait_eq hw]

end Sys2Proof.Machine
end

section
/-! PROOFS. O32: the steps of a whole wait against the function of the samples offered (41_trigger_edge_detector.md R106, R208;
logs 3 and 7). -/

namespace Sys2Proof.Machine

/-- The predicate of R106 on the offered samples is the one an iteration evaluates. -/
theorem hitAt_succ_iff {m : TriggerMode} (hm : m ≠ .free) (level : Sample) (draws : List Sample) (k : Nat) :
    hitAt m level draws (k + 1) ↔
      edgeFires m level (sampleAt level draws k) (sampleAt level draws (k + 1)) = true := by
  cases m with
  | free => exact absurd rfl hm
  | risingEdge => simp [hitAt, edgeFires]
  | fallingEdge => simp [hitAt, edgeFires]

/-- A wait after `k` reads: the first `k` samples are taken, and the history is the last pair of them (R102, R106). -/
def waitingAfter (k : Nat) (s : State) : State :=
  { takeDraws k s with
    trigPrev := sampleAt s.trigLevel s.adcDraws (k - 1)
    trigCurr := sampleAt s.trigLevel s.adcDraws k
    retryCnt := k
    micro := .body }

/-- R101: both entries of the history stand at `p_0`. -/
theorem beginWait_eq_waitingAfter (s : State) : beginWait s = waitingAfter 0 s := by
  simp [beginWait, waitingAfter, takeDraws, sampleAt]

/-- What the next iteration of such a wait finds on offer. -/
theorem waitingAfter_adcDraws {s : State} {k : Nat} (hk : k < s.adcDraws.length) :
    (waitingAfter k s).adcDraws = sampleAt s.trigLevel s.adcDraws (k + 1) :: s.adcDraws.drop (k + 1) := by
  rw [sampleAt, List.getD_eq_getElem _ _ hk]
  exact List.drop_eq_getElem_cons hk

/-- R102: one more read shifts the last pair by one. -/
theorem shiftSample_waitingAfter (k : Nat) (s : State) :
    shiftSample (sampleAt s.trigLevel s.adcDraws (k + 1)) (converted (waitingAfter k s) (s.adcDraws.drop (k + 1))) =
      waitingAfter (k + 1) s := by
  simp [shiftSample, converted, waitingAfter, takeDraws, List.replicate_succ']

section
variable {s : State} {after : Phase} {k : Nat}

/-- A wait that has begun goes on with its next iteration. -/
theorem coreStep_waitingAfter (hw : (s.phase, after) ∈ waitPhases) (hh : s.txHeld = []) (hm : s.trigMode ≠ .free) :
    coreStep (waitingAfter k s) = waitIteration after (waitingAfter k s) :=
  (coreStep_wait (s := waitingAfter k s) hw hh).trans (waitStep_body (s := waitingAfter k s) hm rfl)

/-- Iteration `k + 1` of a wait, in the terms of R106. -/
theorem coreStep_waitingAfter_read (hw : (s.phase, after) ∈ waitPhases) (hh : s.txHeld = []) (hm : s.trigMode ≠ .free)
    (hlimit : k < s.params.retryLimit) (hk : k < s.adcDraws.length) :
    (¬hitAt s.trigMode s.trigLevel s.adcDraws (k + 1) → coreStep (waitingAfter k s) = .next (waitingAfter (k + 1) s)) ∧
    (hitAt s.trigMode s.trigLevel s.adcDraws (k + 1) →
      coreStep (waitingAfter k s) = .next (endWait .satisfied after (waitingAfter (k + 1) s))) := by
  have hread := waitIteration_read (s := waitingAfter k s) (after := after) hlimit (waitingAfter_adcDraws hk)
  rw [shiftSample_waitingAfter] at hread
  have hfires := hitAt_succ_iff hm s.trigLevel s.adcDraws k
  rw [coreStep_waitingAfter hw hh hm, hread]
  constructor
  · exact fun hmiss => congrArg _ (if_neg fun hf => hmiss (hfires.mpr hf))
  · exact fun hhit => congrArg _ (if_pos (hfires.mp hhit))

/-- The wait goes on as long as nothing hits: its beginning and `k` reads. -/
theorem runSteps_waitingAfter (hw : (s.phase, after) ∈ waitPhases) (hh : s.txHeld = []) (hm : s.trigMode ≠ .free)
    (hmi : s.micro = .start) (hs : s.schedule = []) (hlimit : k ≤ s.params.retryLimit) (hk : k ≤ s.adcDraws.length)
    (hmiss : ∀ j, 1 ≤ j → j ≤ k → ¬hitAt s.trigMode s.trigLevel s.adcDraws j) :
    runSteps (k + 1) s = .next (waitingAfter k s) := by
  induction k with
  | zero =>
    refine runSteps_next 0 hs ?_
    rw [coreStep_wait hw hh, waitStep_start hm hmi, beginWait_eq_waitingAfter]
  | succ k ih =>
    have hbefore := ih (by omega) (by omega) fun j h1 hj => hmiss j h1 (by omega)
    rw [runSteps_add (k + 1) 1 hbefore]
    exact runSteps_next 0 hs ((coreStep_waitingAfter_read hw hh hm hlimit hk).1 (hmiss (k + 1) (by omega) le_rfl))

end

/-- Settles O32: the reads without a hit, and then the step that hits, times out or is never answered. -/
theorem wholeWaitIsTheFirstHit : Obligations.WholeWaitIsTheFirstHit := by
  rintro s _ after hw rfl hmi hs hh
  refine ⟨fun hm => ?free, fun hm => ⟨fun k hk1 hlimit hk hhit hleast => ?hit, fun hlimit hmiss => ?timeout,
    fun hlimit hmiss => ?stall⟩⟩
  case free =>
    refine runSteps_next 0 hs ?_
    rw [coreStep_wait hw hh, waitStep_free hm, endWait_eq hw]
  case hit =>
    obtain ⟨n, rfl⟩ := Nat.exists_eq_add_of_le' hk1
    have hbefore := runSteps_waitingAfter (k := n) hw hh hm hmi hs (by omega) (by omega)
      fun j h1 hj => hleast j h1 (by omega)
    rw [runSteps_add (n + 1) 1 hbefore]
    refine runSteps_next 0 hs ?_
    rw [(coreStep_waitingAfter_read hw hh hm hlimit hk).2 hhit, endWait_eq hw]
    rfl
  case timeout =>
    rw [runSteps_add _ 1 (runSteps_waitingAfter hw hh hm hmi hs le_rfl hlimit hmiss)]
    refine runSteps_next 0 hs ?_
    rw [coreStep_waitingAfter hw hh hm, waitIteration_timeout le_rfl, endWait_eq hw]
    rfl
  case stall =>
    rw [runSteps_add _ 1 (runSteps_waitingAfter hw hh hm hmi hs hlimit.le le_rfl hmiss)]
    refine runSteps_fault 0 hs ?_
    rw [coreStep_waitingAfter hw hh hm, waitIteration_stall hlimit List.drop_length]

end Sys2Proof.Machine
end

section
/-! PROOFS. O33, O35: the whole wait as one function, on its first sample and on a monotone signal
(41_trigger_edge_detector.md R107, R109). -/

namespace Sys2Proof.Machine

section
variable {m : TriggerMode} {level prev curr v : Sample} {budget : Nat} {draws : List Sample} {r : WaitResult}

theorem scanEdges_miss (h : edgeFires m level curr v = false) :
    scanEdges m level (budget + 1) prev curr (v :: draws) =
      (scanEdges m level budget curr v draws).map fun r => { r with reads := r.reads + 1 } := by
  simp [scanEdges, h]

/-- A wait that is satisfied was satisfied by a read. -/
theorem scanEdges_reads_pos (h : scanEdges m level budget prev curr draws = some r) (hr : r.outcome = .satisfied) :
    1 ≤ r.reads := by
  cases budget with
  | zero =>
    obtain rfl := Option.some.inj h
    cases hr
  | succ budget =>
    cases draws with
    | nil => cases h
    | cons v draws =>
      cases hf : edgeFires m level curr v with
      | true =>
        simp only [scanEdges, hf, if_true, Option.some.injEq] at h
        subst h
        exact le_rfl
      | false =>
        rw [scanEdges_miss hf] at h
        obtain ⟨rest, -, rfl⟩ := Option.map_eq_some_iff.mp h
        exact Nat.le_add_left 1 rest.reads

/-- A wait over samples of which no two neighbours fire uses up its budget. -/
theorem scanEdges_of_isChain (hchain : List.IsChain (fun a b => edgeFires m level a b = false) (curr :: draws))
    (h : scanEdges m level budget prev curr draws = some r) : r.outcome = .timedOut ∧ r.reads = budget := by
  induction budget generalizing prev curr draws r with
  | zero =>
    obtain rfl := Option.some.inj h
    exact ⟨rfl, rfl⟩
  | succ budget ih =>
    cases draws with
    | nil => cases h
    | cons v draws =>
      obtain ⟨hmiss, hrest⟩ := List.isChain_cons_cons.mp hchain
      rw [scanEdges_miss hmiss] at h
      obtain ⟨rest, hscan, rfl⟩ := Option.map_eq_some_iff.mp h
      obtain ⟨houtcome, hreads⟩ := ih hrest hscan
      exact ⟨houtcome, congrArg (· + 1) hreads⟩

/-- R107: the first iteration of a wait only counts. -/
theorem tedWait_cons (hm : m ≠ .free) :
    tedWait m level (budget + 1) (v :: draws) =
      (scanEdges m level budget level v draws).map fun r => { r with reads := r.reads + 1 } :=
  scanEdges_miss (edgeFires_at_level hm level v)

theorem tedWait_reads_of_satisfied (hm : m ≠ .free) (h : tedWait m level budget draws = some r)
    (hr : r.outcome = .satisfied) : 2 ≤ r.reads := by
  cases budget with
  | zero =>
    obtain rfl := Option.some.inj h
    cases hr
  | succ budget =>
    cases draws with
    | nil => cases h
    | cons v draws =>
      rw [tedWait_cons hm] at h
      obtain ⟨rest, hscan, rfl⟩ := Option.map_eq_some_iff.mp h
      exact Nat.succ_le_succ (scanEdges_reads_pos hscan hr)

/-- R107: with a budget of at most one read nothing can hit. -/
theorem tedWait_of_limit_le_one (hm : m ≠ .free) (hlimit : budget ≤ 1) (hlen : budget ≤ draws.length) :
    ∃ r, tedWait m level budget draws = some r ∧ r.outcome = .timedOut ∧ r.reads = budget := by
  obtain rfl | rfl := Nat.le_one_iff_eq_zero_or_eq_one.mp hlimit
  · exact ⟨_, rfl, rfl, rfl⟩
  · cases draws with
    | nil => cases hlen
    | cons v draws => exact ⟨_, tedWait_cons hm, rfl, rfl⟩

/-- R109: where no sample fires with its successor, no wait is satisfied, since the first one does not fire with the level. -/
theorem tedWait_of_pairwise {R : Sample → Sample → Prop} (hm : m ≠ .free)
    (hR : ∀ {a b : Sample}, R a b → edgeFires m level a b = false) (hdraws : draws.Pairwise R)
    (h : tedWait m level budget draws = some r) : r.outcome = .timedOut ∧ r.reads = budget := by
  refine scanEdges_of_isChain ?_ h
  cases draws with
  | nil => exact List.isChain_singleton level
  | cons v draws =>
    exact List.isChain_cons_cons.mpr ⟨edgeFires_at_level hm level v, (hdraws.imp hR).isChain⟩

end

/-- An edge at the second sample, for either polarity. -/
theorem exists_tedWait_reads_two {m : TriggerMode} (hm : m ≠ .free) :
    ∃ (level : Sample) (limit : Nat) (draws : List Sample) (r : WaitResult),
      tedWait m level limit draws = some r ∧ r.outcome = .satisfied ∧ r.reads = 2 := by
  cases m with
  | free => exact absurd rfl hm
  | risingEdge => exact ⟨512#10, 2, [600#10, 512#10], ⟨.satisfied, 2, 600#10, 512#10⟩, by decide, rfl, rfl⟩
  | fallingEdge => exact ⟨512#10, 2, [511#10, 512#10], ⟨.satisfied, 2, 511#10, 512#10⟩, by decide, rfl, rfl⟩

/-- Settles O33: the history begins at the level, where neither polarity's strict compare holds. -/
theorem firstSampleNeverFires : Obligations.FirstSampleNeverFires := fun _ hm =>
  ⟨edgeFires_at_level hm, fun _ _ _ _ => tedWait_reads_of_satisfied hm, exists_tedWait_reads_two hm,
    fun _ _ _ => tedWait_of_limit_le_one hm⟩

/-- Settles O35. -/
theorem monotoneSignalsTimeOut : Obligations.MonotoneSignalsTimeOut := fun _ _ _ _ =>
  ⟨tedWait_of_pairwise (by decide) edgeFires_risingEdge_of_le, tedWait_of_pairwise (by decide) edgeFires_fallingEdge_of_ge⟩

end Sys2Proof.Machine
end

section
/-! PROOFS. O46: the history and the retry count are local to one wait (41_trigger_edge_detector.md R112). -/

namespace Sys2Proof.Machine

/-- The state with other contents of the registers of a wait (R10, R11, R13). -/
def withHistory (prev curr : Sample) (n : Nat) (s : State) : State :=
  { s with trigPrev := prev, trigCurr := curr, retryCnt := n }

/-- An edge-mode wait writes all three before it reads any of them (R101). -/
theorem wholeWait_withHistory {s : State} (hm : s.trigMode ≠ .free) (prev curr : Sample) (n : Nat) :
    wholeWait (withHistory prev curr n s) = wholeWait s := by
  rw [wholeWait_edge hm, wholeWait_edge (s := withHistory prev curr n s) hm]
  rfl

/-- R184: a Burst transition is its wait and what follows on the state the wait leaves. -/
theorem tickBurst_congr {s t : State} (h : wholeWait s = wholeWait t) : tickBurst s = tickBurst t := by
  rw [tickBurst, h, tickBurst]

/-- R186: so is a Continuous transition that makes a wait. -/
theorem tickContinuous_congr {s t : State} (hs : s.frameCount = 0) (ht : t.frameCount = 0) (h : wholeWait s = wholeWait t) :
    tickContinuous s = tickContinuous t := by
  rw [tickContinuous, if_pos hs, h, tickContinuous, if_pos ht]

/-- Settles O46. -/
theorem historyIsLocalToOneWait : Obligations.HistoryIsLocalToOneWait := by
  intro s prev curr n hm
  have hwait := wholeWait_withHistory hm prev curr n
  exact ⟨tickBurst_congr hwait, fun hc => tickContinuous_congr hc hc hwait⟩

end Sys2Proof.Machine
end

section
/-! PROOFS. O21: a step in a transmitting phase runs the wire byte that is fetched (42_frame_buffer_manager.md R124,
45_acquisition_control_fsm.md R187, R188; log 9), and the form it has with a ready transport. -/

namespace Sys2Proof.Machine

/-- What is fetched in a transmitting phase is a wire row (R73). -/
theorem fetched_stream_of_transmits {s : State} {i : Instr} (ht : transmits s.phase = true) (hf : fetched s = some i) :
    i.stream = .tx := by
  rcases (fetched_case hf).drain_or_wire with hp | hi
  · simp [hp, transmits] at ht
  · exact hi

/-- What follows an instruction waits for the transport to take its byte (R86). -/
theorem retire_eq_ite (t : State) : retire t = if t.txHeld = [] then retired t else t := by
  simp [retire]

/-- Fetching takes nothing there, so the instruction is performed on the state itself. -/
theorem coreStep_of_transmits {s t : State} {i : Instr} (hh : s.txHeld = []) (ht : transmits s.phase = true)
    (hf : fetched s = some i) (hx : exec i s = .next t) : coreStep s = .next (retire t) :=
  coreStep_issue hh hf ((consumed_of_transmits ht).symm ▸ hx)

/-- Settles O21. -/
theorem stepRunsTheFetchedWireByte : Obligations.StepRunsTheFetchedWireByte := by
  intro s i hs hh ht hf
  obtain ⟨t, hx⟩ := exec_next i s
  refine ⟨fetched_stream_of_transmits ht hf, t, hx, ?_⟩
  rw [step_of_no_turn hs, coreStep_of_transmits hh ht hf hx, retire_eq_ite]

/-- With a ready transport the byte joins TX at once, and the phase goes on (R86). -/
theorem coreStep_wire_ready {s : State} {i : Instr} (hfree : TransportFree s) (ht : transmits s.phase = true)
    (hf : fetched s = some i) : coreStep s = .next (retired { s with tx := s.tx ++ encode i }) := by
  have hx := exec_wire_ready (fetched_stream_of_transmits ht hf) hfree
  rw [coreStep_of_transmits hfree.txHeld ht hf hx]
  exact congrArg _ (retire_of_txHeld_nil hfree.txHeld)

/-- R142: the row that sends Byte 1 of a sample. -/
theorem encode_hiInstr (v : Sample) : encode (hiInstr v) = [byte1 v] :=
  congrArg (fun b => [b]) (wire_hi_eq_byte1 v)

/-- R143: the row that sends Byte 2 of a sample. -/
theorem encode_loInstr (v : Sample) (cont last : Bool) : encode (loInstr v cont last) = [byte2 v cont last] := by
  rw [← wire_lo_eq_byte2]
  cases cont <;> cases last <;> rfl

end Sys2Proof.Machine
end

section
/-! PROOFS. O36, O38: one step of the burst fill and the single read of Continuous mode (42_frame_buffer_manager.md R120, R121,
R123). -/

namespace Sys2Proof.Machine

variable {s : State}

/-- R82: a conversion that is answered. -/
theorem adcRead_cons {v : Sample} {draws : List Sample} (hd : s.adcDraws = v :: draws) (next : Sample → State → Result) :
    adcRead s next = next v (converted s draws) := by
  simp only [adcRead, hd, converted]

/-- R41: a write inside the frame store. -/
theorem memWrite_of_lt {i : Nat} (hi : i < s.params.nframe) (v : Sample) (next : State → Result) :
    memWrite i v s next = next { s with buf := Memory.write s.buf i v } :=
  if_pos hi

/-- In B_FILL the CORE's step is a step of the fill (R30). -/
theorem coreStep_bFill (hh : s.txHeld = []) (hp : s.phase = .bFill) : coreStep s = fillStep s := by
  rw [coreStep_internal hh (by simp only [fetched, hp])]
  simp only [internalStep, hp]

/-- In C_READ it is AdvanceOne. -/
theorem coreStep_cRead (hh : s.txHeld = []) (hp : s.phase = .cRead) : coreStep s = advanceOne s := by
  rw [coreStep_internal hh (by simp only [fetched, hp])]
  simp only [internalStep, hp]

theorem fillStep_start (hmi : s.micro = .start) : fillStep s = .next { s with wrPtr := 0, micro := .body } := by
  simp only [fillStep, hmi]

/-- R121: the conversion is stored at the write pointer, which advances. -/
theorem fillStep_entry {v : Sample} {draws : List Sample} (hmi : s.micro = .body) (hw : s.wrPtr < s.burstLength)
    (hn : s.burstLength ≤ s.params.nframe) (hd : s.adcDraws = v :: draws) :
    fillStep s = .next { converted s draws with buf := Memory.write s.buf s.wrPtr v, wrPtr := s.wrPtr + 1 } := by
  simp only [fillStep, hmi, if_pos hw, adcRead_cons hd]
  exact memWrite_of_lt (s := converted s draws) (hw.trans_le hn) v _

theorem fillStep_end (hmi : s.micro = .body) (hw : s.burstLength ≤ s.wrPtr) : fillStep s = .next (endFill s) := by
  simp only [fillStep, hmi, if_neg (Nat.not_lt.mpr hw)]

/-- R184: the frame is sent when its wait was Satisfied and the run state is not Stop. -/
theorem endFill_eq (s : State) : endFill s = { s with
    phase := if s.trigOutcome = .satisfied ∧ s.runState ≠ .stop then .bXmit else .drain
    micro := .start } := by
  by_cases hsend : s.trigOutcome = .satisfied ∧ s.runState ≠ .stop <;> simp [endFill, sendsFrame, enter, hsend]

/-- R123, R30: the one live sample is entry 0, which every frame store has. -/
theorem advanceOne_cons {v : Sample} {draws : List Sample} (hd : s.adcDraws = v :: draws) :
    advanceOne s = .next (enter (if s.runState = .stop then .drain else .cXmit)
      { converted s draws with buf := Memory.write s.buf 0 v, wrPtr := 1 }) := by
  rw [advanceOne, adcRead_cons hd, memWrite_of_lt (Nat.succ_pos _)]
  by_cases hr : s.runState = .stop <;> simp [converted, hr]

/-- Settles O36. -/
theorem fillStoresAtTheWritePointer : Obligations.FillStoresAtTheWritePointer := by
  intro s hh hp
  rw [coreStep_bFill hh hp]
  refine ⟨fillStep_start, fun v draws hmi hw hn hd hbuf => ?_⟩
  exact ⟨_, fillStep_entry hmi hw hn hd, Memory.read_write_same s.buf hbuf s.wrPtr v,
    fun a ha => Memory.read_write_other s.buf s.wrPtr a v ha⟩

/-- Settles O38. -/
theorem advanceOneKeepsOneLiveSample : Obligations.AdvanceOneKeepsOneLiveSample := by
  intro s v draws hh hp hd hbuf
  refine ⟨Memory.write s.buf 0 v, ?_, Memory.read_write_same s.buf hbuf 0 v,
    fun a ha => Memory.read_write_other s.buf 0 a v ha⟩
  rw [coreStep_cRead hh hp, advanceOne_cons hd]
  by_cases hr : s.runState = .stop <;> simp [enter, converted, hr]

end Sys2Proof.Machine
end

section
/-! PROOFS. O37: the steps of a whole fill (42_frame_buffer_manager.md R122, R184). -/

namespace Sys2Proof.Machine

/-- One more entry written after a run of writes. -/
theorem Memory.writeFrom_append {w : Nat} (vs : List (BitVec w)) (m : Memory w) (a : Nat) (v : BitVec w) :
    Memory.writeFrom m a (vs ++ [v]) = Memory.write (Memory.writeFrom m a vs) (a + vs.length) v := by
  induction vs generalizing m a with
  | nil => rfl
  | cons u us ih =>
    rw [List.cons_append, Memory.writeFrom, ih, Memory.writeFrom, List.length_cons, Nat.add_right_comm, Nat.add_assoc]

/-- A fill after `k` conversions: the first `k` samples offered are taken and stand in the entries from 0 (R120, R121). -/
def filledTo (k : Nat) (s : State) : State :=
  { takeDraws k s with
    buf := Memory.writeFrom s.buf 0 (s.adcDraws.take k)
    wrPtr := k
    micro := .body }

/-- R120: no entry is written at the start. -/
theorem filledTo_zero (s : State) : filledTo 0 s = { s with wrPtr := 0, micro := .body } := by
  simp [filledTo, takeDraws, Memory.writeFrom]

section
variable {s : State} {k : Nat}

/-- R121: one more conversion fills one more entry. -/
theorem filledTo_succ (hk : k < s.adcDraws.length) :
    filledTo (k + 1) s = { converted (filledTo k s) (s.adcDraws.drop (k + 1)) with
      buf := Memory.write (filledTo k s).buf k s.adcDraws[k], wrPtr := k + 1 } := by
  have hbuf : Memory.writeFrom s.buf 0 (s.adcDraws.take (k + 1)) =
      Memory.write (Memory.writeFrom s.buf 0 (s.adcDraws.take k)) k s.adcDraws[k] := by
    rw [List.take_succ_eq_append_getElem hk, Memory.writeFrom_append, List.length_take_of_le hk.le, Nat.zero_add]
  simp [filledTo, converted, takeDraws, hbuf, List.replicate_succ']

/-- The fill goes on below `burst_length`: its beginning and `k` entries. -/
theorem runSteps_filledTo (hs : s.schedule = []) (hh : s.txHeld = []) (hp : s.phase = .bFill) (hmi : s.micro = .start)
    (hn : s.burstLength ≤ s.params.nframe) (hk : k ≤ s.burstLength) (hd : k ≤ s.adcDraws.length) :
    runSteps (k + 1) s = .next (filledTo k s) := by
  induction k with
  | zero =>
    refine runSteps_next 0 hs ?_
    rw [coreStep_bFill hh hp, fillStep_start hmi, filledTo_zero]
  | succ k ih =>
    have hoffer : (filledTo k s).adcDraws = s.adcDraws[k] :: s.adcDraws.drop (k + 1) := List.drop_eq_getElem_cons hd
    rw [runSteps_add (k + 1) 1 (ih (by omega) (by omega))]
    refine runSteps_next 0 hs ?_
    rw [coreStep_bFill (s := filledTo k s) hh hp, fillStep_entry (s := filledTo k s) rfl hk hn hoffer, filledTo_succ hd]
    rfl

/-- The whole fill, with the step that ends it. -/
theorem runSteps_wholeFill (hs : s.schedule = []) (hh : s.txHeld = []) (hp : s.phase = .bFill) (hmi : s.micro = .start)
    (hn : s.burstLength ≤ s.params.nframe) (hd : s.burstLength ≤ s.adcDraws.length) :
    runSteps (s.burstLength + 2) s = .next (endFill (filledTo s.burstLength s)) := by
  rw [runSteps_add _ 1 (runSteps_filledTo hs hh hp hmi hn le_rfl hd)]
  refine runSteps_next 0 hs ?_
  exact (coreStep_bFill (s := filledTo s.burstLength s) hh hp).trans (fillStep_end rfl le_rfl)

/-- R122: `buf[i] = s_i` below `k`, and every other entry as it was. -/
theorem read_filledTo (hbuf : Memory.wf s.buf) (hd : k ≤ s.adcDraws.length) (a : Nat) :
    Memory.read (filledTo k s).buf a = if a < k then s.adcDraws.getD a 0#10 else Memory.read s.buf a := by
  rw [filledTo, Memory.read_writeFrom _ _ hbuf, if_pos (Nat.zero_le a), Nat.sub_zero, List.getElem?_take]
  split
  case isTrue ha =>
    have had := ha.trans_le hd
    rw [List.getD_eq_getElem _ _ had, List.getElem?_eq_getElem had, Option.getD_some]
  case isFalse => rfl

end

/-- Settles O37: the entries one by one, and then the step that ends the fill. -/
theorem wholeFillHoldsTheDraws : Obligations.WholeFillHoldsTheDraws := by
  intro s hs hh hp hmi hn hd hbuf
  refine ⟨(filledTo s.burstLength s).buf, ?_, read_filledTo hbuf hd⟩
  rw [runSteps_wholeFill hs hh hp hmi hn hd, endFill_eq]
  rfl

end Sys2Proof.Machine
end

section
/-! PROOFS. O39: the steps of a whole read-out (42_frame_buffer_manager.md R124, R185). -/

namespace Sys2Proof.Machine

/-- The bytes of the first `k` entries of a burst of `length` samples: of `frameBytes`, two bytes for each of them. -/
def sentBytes (buf : Memory 10) (length k : Nat) : List Byte := (List.range k).flatMap (entryBytes buf length)

section
variable (buf : Memory 10) (length : Nat)

theorem sentBytes_all : sentBytes buf length length = frameBytes buf length := rfl

theorem sentBytes_zero : sentBytes buf length 0 = [] := rfl

theorem sentBytes_succ (k : Nat) :
    sentBytes buf length (k + 1) = sentBytes buf length k ++ entryBytes buf length k := by
  simp [sentBytes, List.range_succ]

theorem length_sentBytes (k : Nat) : (sentBytes buf length k).length = 2 * k := by
  induction k with
  | zero => rfl
  | succ k ih => rw [sentBytes_succ, List.length_append, ih]; rfl

/-- Entry `a` has the bytes at `2 * a` and after it. -/
theorem sentBytes_getElem? {a k j : Nat} (ha : a < k) (hj : j < 2) :
    (sentBytes buf length k)[2 * a + j]? = (entryBytes buf length a)[j]? := by
  induction k with
  | zero => omega
  | succ k ih =>
    have hlen := length_sentBytes buf length k
    rw [sentBytes_succ]
    rcases Nat.lt_succ_iff_lt_or_eq.mp ha with hlt | rfl
    · rw [List.getElem?_append_left (by omega), ih hlt]
    · rw [List.getElem?_append_right (by omega), hlen, Nat.add_sub_cancel_left]

end

/-- R141: the mask of Byte 2 tells the last sample of a burst. -/
theorem maskOf_burst (last : Bool) : maskOf false last = if last = true then 0x40#8 else 0x20#8 := by
  cases last <;> rfl

/-- A read-out after `k` entries (R124). -/
def sentTo (k : Nat) (s : State) : State :=
  { s with
    tx := s.tx ++ sentBytes s.buf s.burstLength k
    rdPtr := k
    micro := .body }

section
variable {s : State}

theorem fetched_burst_byte1 (hp : s.phase = .bXmit) (hmi : s.micro = .body) (hr : s.rdPtr < s.burstLength)
    (hn : s.burstLength ≤ s.params.nframe) : fetched s = some (hiInstr (Memory.read s.buf s.rdPtr)) := by
  simp [fetched, fetchedBurstByte, hp, hmi, hr, hr.trans_le hn]

theorem fetched_burst_byte2 (hp : s.phase = .bXmit) (hmi : s.micro = .low) (hr : s.rdPtr < s.burstLength)
    (hn : s.burstLength ≤ s.params.nframe) :
    fetched s = some (loInstr (Memory.read s.buf s.rdPtr) false (decide (s.rdPtr + 1 = s.burstLength))) := by
  simp [fetched, fetchedBurstByte, hp, hmi, hr.trans_le hn]

/-- The read-out begins at entry 0 (R124). -/
theorem coreStep_readOut_start (hh : s.txHeld = []) (hp : s.phase = .bXmit) (hmi : s.micro = .start) :
    coreStep s = .next { s with rdPtr := 0, micro := .body } := by
  rw [coreStep_internal hh (by simp [fetched, fetchedBurstByte, hp, hmi])]
  simp only [internalStep, readOutStep, hp, hmi]

/-- Byte 1 of the entry at the read pointer sent, and Byte 2 next (R124, R142). -/
def byte1Sent (s : State) : State := { s with tx := s.tx ++ [byte1 (Memory.read s.buf s.rdPtr)], micro := .low }

theorem coreStep_burst_byte1 (hfree : TransportFree s) (hp : s.phase = .bXmit) (hmi : s.micro = .body)
    (hr : s.rdPtr < s.burstLength) (hn : s.burstLength ≤ s.params.nframe) :
    coreStep s = .next (byte1Sent s) := by
  have ht : transmits s.phase = true := by rw [hp]; rfl
  rw [coreStep_wire_ready hfree ht (fetched_burst_byte1 hp hmi hr hn), encode_hiInstr]
  exact congrArg _ (retired_byte1 ht (by simp [hmi]))

/-- R124, R143: Byte 2 of the entry, with the mask of the last entry or of any other, and then what follows a pair. -/
theorem coreStep_burst_byte2 (hfree : TransportFree s) (hp : s.phase = .bXmit) (hmi : s.micro = .low)
    (hr : s.rdPtr < s.burstLength) (hn : s.burstLength ≤ s.params.nframe) :
    coreStep s = .next (afterBurstPair { s with
      tx := s.tx ++ [byte2 (Memory.read s.buf s.rdPtr) false (decide (s.rdPtr + 1 = s.burstLength))] }) := by
  have ht : transmits s.phase = true := by rw [hp]; rfl
  rw [coreStep_wire_ready hfree ht (fetched_burst_byte2 hp hmi hr hn), encode_loInstr]
  exact congrArg _ (retired_burst_byte2 hp hmi)

/-- One entry: its two bytes, and then what follows a pair (R124). -/
theorem runSteps_burst_pair (hs : s.schedule = []) (hfree : TransportFree s) (hp : s.phase = .bXmit) (hmi : s.micro = .body)
    (hr : s.rdPtr < s.burstLength) (hn : s.burstLength ≤ s.params.nframe) :
    runSteps 2 s = .next (afterBurstPair { s with
      tx := s.tx ++ entryBytes s.buf s.burstLength s.rdPtr, micro := .low }) := by
  rw [runSteps_next 1 hs (coreStep_burst_byte1 hfree hp hmi hr hn)]
  have hlow := coreStep_burst_byte2 (s := byte1Sent s) ⟨hfree.txReady, hfree.txHeld⟩ hp rfl hr hn
  rw [runSteps_next (s := byte1Sent s) 0 hs hlow]
  exact congrArg (fun tx => Host.Outcome.next (afterBurstPair { s with tx := tx, micro := .low })) (List.append_assoc _ _ _)

/-- The next entry follows, or the frame ends (R124, R185). -/
theorem afterBurstPair_sentTo (k : Nat) :
    afterBurstPair { sentTo k s with tx := s.tx ++ sentBytes s.buf s.burstLength (k + 1), micro := .low } =
      if k + 1 < s.burstLength then sentTo (k + 1) s else endFrame (sentTo (k + 1) s) := by
  split
  case isTrue hnext => exact if_pos hnext
  case isFalse hlast => exact if_neg hlast

/-- The pair of entry `k`, and what follows it. -/
theorem runSteps_sentTo_pair {k : Nat} (hs : s.schedule = []) (hfree : TransportFree s) (hp : s.phase = .bXmit)
    (hk : k < s.burstLength) (hn : s.burstLength ≤ s.params.nframe) :
    runSteps 2 (sentTo k s) =
      .next (if k + 1 < s.burstLength then sentTo (k + 1) s else endFrame (sentTo (k + 1) s)) := by
  have hbytes : (sentTo k s).tx ++ entryBytes s.buf s.burstLength k = s.tx ++ sentBytes s.buf s.burstLength (k + 1) := by
    rw [sentTo, sentBytes_succ, List.append_assoc]
  have hpair := runSteps_burst_pair (s := sentTo k s) hs ⟨hfree.txReady, hfree.txHeld⟩ hp rfl hk hn
  rw [hpair, ← afterBurstPair_sentTo, ← hbytes]
  rfl

/-- The read-out goes on below `burst_length`: its beginning and `k` entries. -/
theorem runSteps_sentTo {k : Nat} (hs : s.schedule = []) (hfree : TransportFree s) (hp : s.phase = .bXmit)
    (hmi : s.micro = .start) (hk : k < s.burstLength) (hn : s.burstLength ≤ s.params.nframe) :
    runSteps (2 * k + 1) s = .next (sentTo k s) := by
  induction k with
  | zero =>
    refine runSteps_next 0 hs ?_
    rw [coreStep_readOut_start hfree.txHeld hp hmi]
    simp [sentTo, sentBytes_zero]
  | succ k ih =>
    rw [show 2 * (k + 1) + 1 = 2 * k + 1 + 2 by omega, runSteps_add _ 2 (ih (by omega)),
      runSteps_sentTo_pair hs hfree hp (by omega) hn, if_pos hk]

/-- The whole read-out, the end of the frame with its last byte (R185). -/
theorem runSteps_wholeReadOut (hs : s.schedule = []) (hfree : TransportFree s) (hp : s.phase = .bXmit)
    (hmi : s.micro = .start) (hpos : 1 ≤ s.burstLength) (hn : s.burstLength ≤ s.params.nframe) :
    runSteps (2 * s.burstLength + 1) s = .next (endFrame (wholeReadOut s)) := by
  obtain ⟨k, hk⟩ := Nat.exists_eq_add_of_le' hpos
  rw [show 2 * s.burstLength + 1 = 2 * k + 1 + 2 by omega,
    runSteps_add _ 2 (runSteps_sentTo hs hfree hp hmi (by omega) hn), runSteps_sentTo_pair hs hfree hp (by omega) hn,
    if_neg (by omega), ← hk]
  rfl

end

/-- Settles O39: the entries one by one, and the bytes of each by its place in the frame. -/
theorem wholeReadOutSendsTheFrame : Obligations.WholeReadOutSendsTheFrame := by
  intro s hs hfree hp hmi hpos hn
  refine ⟨frameBytes s.buf s.burstLength, ?_, length_sentBytes _ _ _, fun a ha => ⟨?_, ?_⟩⟩
  · rw [runSteps_wholeReadOut hs hfree hp hmi hpos hn]
    rfl
  · exact sentBytes_getElem? s.buf s.burstLength ha Nat.two_pos
  · have hlast : a + 1 = s.burstLength ↔ a = s.burstLength - 1 := by omega
    rw [← sentBytes_all, sentBytes_getElem? s.buf s.burstLength ha Nat.one_lt_two]
    simp [entryBytes, encodeSample, byte2, maskOf_burst, hlast]

end Sys2Proof.Machine
end

section
/-! PROOFS. O7, O16: the sample codec by the two fields of its wire bytes (43_protocol_codec.md R141 to R143, R147). -/

namespace Sys2Proof.Machine

/-- The flag field of a wire byte, shifted down (R67). -/
@[simp] theorem wire_ushiftRight (f : BitVec 3) (p : BitVec 5) : wire f p >>> 5 = f.setWidth 8 := by
  apply BitVec.eq_of_getLsbD_eq
  intro i hi
  rw [BitVec.getLsbD_ushiftRight, wire_getLsbD, if_neg (by omega), Nat.add_sub_cancel_left]
  simp [hi]

/-- A wire byte with its flag bits masked off (R147). -/
@[simp] theorem wire_and_payloadMask (f : BitVec 3) (p : BitVec 5) : wire f p &&& 0x1f#8 = p.setWidth 8 :=
  calc (f ++ p) &&& (0#3 ++ BitVec.allOnes 5)
    _ = (f &&& 0#3) ++ (p &&& BitVec.allOnes 5) := BitVec.and_append
    _ = 0#3 ++ p := by rw [BitVec.and_zero, BitVec.and_allOnes]
    _ = p.setWidth 8 := (BitVec.setWidth_eq_append (by decide)).symm

/-- R147: the decode law joins the two payloads, whatever the flags. -/
theorem decodeSample_wire (f g : BitVec 3) (hi lo : BitVec 5) : decodeSample (wire f hi) (wire g lo) = hi ++ lo := by
  have hjoin : hi ++ lo = hi.setWidth 10 <<< 5 ||| lo.setWidth 10 := by
    rw [← BitVec.setWidth_append_eq_shiftLeft_setWidth_or, BitVec.setWidth_eq]
  simp [decodeSample, hjoin]

/-- R142, R143: the payloads of a pair are the whole sample. -/
theorem sample_of_payloads (v : Sample) : v.extractLsb' 5 5 ++ v.extractLsb' 0 5 = v :=
  (BitVec.extractLsb'_append_extractLsb'_eq_extractLsb' rfl).trans BitVec.extractLsb'_eq_self

/-- The mask of Byte 2 carries its flag and nothing else (R141). -/
theorem maskOf_eq_wire (cont last : Bool) : maskOf cont last = wire (flagOf cont last) 0#5 := by
  cases cont <;> cases last <;> rfl

/-- Byte 1 has flag 000 (R142). -/
theorem byte1_ushiftRight (v : Sample) : byte1 v >>> 5 = 0#8 := by
  rw [← wire_hi_eq_byte1, wire_ushiftRight, BitVec.setWidth_zero]

/-- Byte 1 is its payload (R142). -/
theorem byte1_le (v : Sample) : (byte1 v).toNat ≤ 0x1f := by
  have hpayload : (byte1 v).toNat = (v.extractLsb' 5 5).toNat := by
    rw [← wire_hi_eq_byte1, wire, BitVec.toNat_append, BitVec.toNat_ofNat, Nat.zero_mod, Nat.zero_shiftLeft, Nat.zero_or]
  have hlt := (v.extractLsb' 5 5).isLt
  omega

/-- Byte 2 has the flag that the flag input selects (R141, R143). -/
theorem byte2_ushiftRight (v : Sample) (cont last : Bool) : byte2 v cont last >>> 5 = (flagOf cont last).setWidth 8 := by
  rw [← wire_lo_eq_byte2, wire_ushiftRight]

/-- Settles O7: each byte of the pair is a flag and a payload, and the two payloads make the sample. -/
theorem encodedSampleIsRecovered : Obligations.EncodedSampleIsRecovered := by
  intro v cont last
  refine ⟨?sample, byte1_ushiftRight v, (byte2_ushiftRight v cont last).trans ?flag⟩
  case sample =>
    calc decodeSample (byte1 v) (byte2 v cont last)
      _ = decodeSample (wire 0#3 (v.extractLsb' 5 5)) (wire (flagOf cont last) (v.extractLsb' 0 5)) := by
        rw [wire_hi_eq_byte1, wire_lo_eq_byte2]
      _ = v := by rw [decodeSample_wire, sample_of_payloads]
  case flag => cases cont <;> cases last <;> rfl

/-- The four kinds of Byte 2 with their masks are the four flag inputs (R141). -/
theorem exists_flags_of_mem {v : Sample} {i : Instr} {mask : Byte}
    (h : (i, mask) ∈ [(.burstMid (v.extractLsb' 0 5), 0x20#8), (.burstLast (v.extractLsb' 0 5), 0x40#8),
      (.contMid (v.extractLsb' 0 5), 0x60#8), (.contLast (v.extractLsb' 0 5), 0xa0#8)]) :
    ∃ cont last, i = loInstr v cont last ∧ mask = maskOf cont last := by
  simp only [List.mem_cons, Prod.mk.injEq, List.not_mem_nil, or_false] at h
  rcases h with ⟨rfl, rfl⟩ | ⟨rfl, rfl⟩ | ⟨rfl, rfl⟩ | ⟨rfl, rfl⟩
  exacts [⟨false, false, rfl, rfl⟩, ⟨false, true, rfl, rfl⟩, ⟨true, false, rfl, rfl⟩, ⟨true, true, rfl, rfl⟩]

/-- Settles O16: each row pushes its encoding, which is Byte 1 or Byte 2 of the sample; Byte 2 is a payload under a flag, and
its mask is that flag. -/
theorem samplePairIsTheArithmeticOfTheCodec : Obligations.SamplePairIsTheArithmeticOfTheCodec := by
  intro s v hfree
  refine ⟨?hi, byte1_le v, fun i mask hmem => ?lo⟩
  case hi => exact (exec_wire_ready (stream_hiInstr v) hfree).trans (by rw [encode_hiInstr, byte1])
  case lo =>
    obtain ⟨cont, last, rfl, rfl⟩ := exists_flags_of_mem hmem
    refine ⟨?push, ?payload, ?flag⟩
    case push => rw [exec_wire_ready (stream_loInstr v cont last) hfree, encode_loInstr, byte2]
    case payload =>
      change wirePayload (byte2 v cont last) = _
      rw [← wire_lo_eq_byte2, wirePayload_wire]
    case flag =>
      change byte2 v cont last >>> 5 = _
      rw [byte2_ushiftRight, maskOf_eq_wire, wire_ushiftRight]

end Sys2Proof.Machine
end

section
/-! PROOFS. O20, O24, O25: one step of DRAIN at a received byte (43_protocol_codec.md R151 to R153, R155). -/

namespace Sys2Proof.Machine

/-- Settles O20: the newline dispatches the command, which leaves the phase; what follows it in DRAIN is the emptied line. -/
theorem stepRunsTheDecodedCommand : Obligations.StepRunsTheDecodedCommand := by
  intro s i rest hs hh hp hrx hd
  obtain ⟨t, hx⟩ := exec_next i { s with rx := rest }
  obtain ⟨-, -, -, -, -, -, -, -, hphase, -⟩ := exec_untouched hx
  refine ⟨t, hx, ?_⟩
  rw [step_of_no_turn hs, coreStep_dispatch hh hp hrx hd hx, retire_eq_ite, retired_drain (hphase.trans hp)]

/-- Settles O24: the byte is stored at `line_len`, and a read of the new line finds it there and the old bytes elsewhere. -/
theorem anyOtherByteIsAppended : Obligations.AnyOtherByteIsAppended := by
  intro s b rest hh hp hrx hb hlen hwf
  refine ⟨Memory.write s.line s.lineLen b, ?_, Memory.read_write_same s.line hwf s.lineLen b,
    fun a ha => Memory.read_write_other s.line s.lineLen a b ha⟩
  have hfull : s.lineLen + 1 = Config.lineMax ↔ s.lineLen = 15 := Nat.succ_inj
  simp only [coreStep_store hh hp hrx hb hlen, hfull]

/-- R64, R155: at the newline of a line that is no command nothing is fetched, and the drain passes over the line. -/
theorem coreStep_ignored {s : State} {r : Reject} {rest : List Byte} (hh : s.txHeld = []) (hp : s.phase = .drain)
    (hrx : s.rx = newline :: rest) (hd : decodeLine (lineContent s) = .reject r) :
    coreStep s = .next { s with rx := rest, lineLen := 0 } := by
  have hf : fetched s = none := by rw [fetched_drain hp hrx, hd, instr?_reject]
  have hi : internalStep s = drainStep s := by simp only [internalStep, hp]
  rw [coreStep_internal hh hf, hi, drainStep_ignored hrx hd]

/-- Settles O25: every rejected line, whatever the reason. -/
theorem ignoredLineChangesNothing : Obligations.IgnoredLineChangesNothing :=
  fun _ _ _ => coreStep_ignored

end Sys2Proof.Machine
end

section
/-! PROOFS. O8 to O14: what each host command writes when it is dispatched, and that an argument outside its letter's domain
does nothing (44_host_commands.md R160 to R167, 30_encoding.md R62 to R64, 60_exceptions.md R207). -/

namespace Sys2Proof.Machine

/-! ### Arguments outside the domain -/

/-- R62, R64 (c): a digit operand outside its domain. -/
theorem withDigit_reject {w dmax : Nat} {arg : Byte} (form : BitVec w → Instr)
    (h : ¬(0x30 ≤ arg.toNat ∧ arg.toNat ≤ 0x30 + dmax)) : withDigit w dmax arg form = .reject .unrecognizedArgument := by
  rw [withDigit, digit?_none.mpr h]

/-- R62, R64 (c): `R` with anything but the digits 0 to 2. -/
theorem decodeRunState_reject {arg : Byte} (h : ¬(0x30 ≤ arg.toNat ∧ arg.toNat ≤ 0x32)) :
    decodeRunState arg = .reject .unrecognizedArgument := by
  rw [decodeRunState, digit?_none.mpr h]

/-- R63, R64 (c): `T` with anything but the letters P, N and F. -/
theorem decodeTriggerMode_reject {arg : Byte} (h : arg ∉ [0x50#8, 0x4e#8, 0x46#8]) :
    decodeTriggerMode arg = .reject .unrecognizedArgument := by
  simp only [List.mem_cons, List.not_mem_nil, or_false, not_or] at h
  obtain ⟨hP, hN, hF⟩ := h
  rw [decodeTriggerMode, if_neg hP, if_neg hN, if_neg hF]

/-- R155: a line that the decoder rejects changes nothing when it is finished. -/
theorem dispatchesNothing_of_reject {content : List Byte} {r : Reject} (h : decodeLine content = .reject r) :
    DispatchesNothing content :=
  fun _ _ hh hp hrx hcontent => coreStep_ignored hh hp hrx (hcontent.symm ▸ h)

/-- R154: the first two bytes of a line decide that it is rejected, and nothing is done with the rest. -/
theorem decodeLine_reject_of_pair {op arg : Byte} {r : Reject} (rest : List Byte) (h : decodePair op arg = .reject r) :
    decodeLine (op :: arg :: rest) = .reject r ∧ DispatchesNothing (op :: arg :: rest) :=
  ⟨h, dispatchesNothing_of_reject h⟩

/-! ### Rates (R5) -/

theorem contTickHz_table : ∀ p ∈ [(0#2, 24), (1#2, 48), (2#2, 96), (3#2, 480)], contTickHz p.1 = p.2 := by decide

theorem burstAdcHz_table : ∀ p ∈ [(0#2, 9600), (1#2, 48000), (2#2, 96000), (3#2, 192000)], burstAdcHz p.1 = p.2 := by
  decide

/-! ### The commands -/

/-- Settles O8: the idle pointers are 0 (log 12). -/
theorem setContinuousModeWritesAndDiscards : Obligations.SetContinuousModeWritesAndDiscards := by
  constructor
  case left =>
    intro s d hz hs hrate
    obtain rfl : contTickHz d = hz := contTickHz_table (d, hz) hrate
    exact ⟨0, 0, Nat.zero_le _, Nat.zero_le _, congrArg _ (txPush_ready (by exact hs.txReady) (by exact hs.txHeld))⟩
  case right => exact fun _ rest h => decodeLine_reject_of_pair rest (withDigit_reject _ h)

/-- Settles O9. -/
theorem setBurstModeWritesAndDiscards : Obligations.SetBurstModeWritesAndDiscards := by
  constructor
  case left =>
    intro s d hz hs hrate
    obtain rfl : burstAdcHz d = hz := burstAdcHz_table (d, hz) hrate
    exact congrArg _ (txPush_ready (by exact hs.txReady) (by exact hs.txHeld))
  case right => exact fun _ rest h => decodeLine_reject_of_pair rest (withDigit_reject _ h)

/-- Settles O10: neither meaning has a push. -/
theorem setRunStateStopAndRunWriteOnly : Obligations.SetRunStateStopAndRunWriteOnly :=
  fun s => ⟨exec_setRunStateStop s, exec_setRunStateRun s⟩

/-- Settles O11. -/
theorem setRunStateSingleWritesAndDiscards : Obligations.SetRunStateSingleWritesAndDiscards := by
  constructor
  case left => exact fun s hs => congrArg _ (txPush_ready (by exact hs.txReady) (by exact hs.txHeld))
  case right => exact fun _ rest h => decodeLine_reject_of_pair rest (decodeRunState_reject h)

/-- Settles O12. -/
theorem setTriggerModeWritesPolarity : Obligations.SetTriggerModeWritesPolarity := by
  constructor
  case left => exact fun s => ⟨exec_setTriggerModePositive s, exec_setTriggerModeNegative s, exec_setTriggerModeFree s⟩
  case right => exact fun _ rest h => decodeLine_reject_of_pair rest (decodeTriggerMode_reject h)

/-- Settles O13: the pin shows the register (R89). -/
theorem setAuxOutputDrivesPin : Obligations.SetAuxOutputDrivesPin := by
  constructor
  case left => exact fun s d => ⟨exec_setAuxOutput s d, rfl⟩
  case right => exact fun _ rest h => decodeLine_reject_of_pair rest (withDigit_reject _ h)

/-- Settles O14: the port shows the register (R81). -/
theorem setChannelSelectsInput : Obligations.SetChannelSelectsInput := by
  constructor
  case left => exact fun s d => ⟨exec_setChannel s d, rfl⟩
  case right => exact fun _ rest h => decodeLine_reject_of_pair rest (withDigit_reject _ h)

end Sys2Proof.Machine
end

section
/-! PROOFS. O17, O18: what an instruction pushes, taken or held back (44_host_commands.md R168, R170,
40_ports_and_collaborators.md R86; log 4). -/

namespace Sys2Proof.Machine

/-- Bytes pushed one after the other (R45). -/
def pushAll : List Byte → State → State
  | [], s => s
  | b :: bs, s => pushAll bs (txPush b s)

/-- Taken or held back, the bytes follow every earlier one in their order (R45, R86). -/
theorem pushAll_stream (bs : List Byte) (s : State) :
    (pushAll bs s).tx ++ (pushAll bs s).txHeld = s.tx ++ s.txHeld ++ bs := by
  induction bs generalizing s with
  | nil => exact (List.append_nil _).symm
  | cons b bs ih => rw [pushAll, ih, txPush_stream, List.append_assoc, List.singleton_append]

/-- While the transport is not ready all of them are held back (R86; log 4). -/
theorem pushAll_notReady {bs : List Byte} {s : State} (hr : s.txReady = false) :
    pushAll bs s = { s with txHeld := s.txHeld ++ bs } := by
  induction bs generalizing s with
  | nil => rw [pushAll, List.append_nil]
  | cons b bs ih =>
    have hstill : (txPush b s).txReady = false := (txPush_txReady b s).trans hr
    rw [pushAll, ih hstill, txPush_held (.inl hr), List.append_assoc, List.singleton_append]

/-- R170: an instruction writes its registers, the same ones whatever the transport says, and then pushes its bytes. -/
theorem exec_pushAll {i : Instr} {s t : State} (h : exec i s = .next t) (ready : Bool) :
    exec i { s with txReady := ready } =
      .next (pushAll (pushedBytes i) { t with txReady := ready, tx := s.tx, txHeld := s.txHeld }) := by
  cases i <;> cases h <;> rfl

/-- R168, R45: the bytes of an instruction follow every earlier one, taken or held back. -/
theorem exec_stream {i : Instr} {s t : State} (h : exec i s = .next t) :
    t.tx ++ t.txHeld = s.tx ++ s.txHeld ++ pushedBytes i := by
  have ht := Host.Outcome.next.inj (h.symm.trans (exec_pushAll h s.txReady))
  have hstream := pushAll_stream (pushedBytes i) { t with txReady := s.txReady, tx := s.tx, txHeld := s.txHeld }
  rwa [← ht] at hstream

/-- Settles O17. -/
theorem everyInstructionPushesItsBytes : Obligations.EveryInstructionPushesItsBytes := by
  intro i s
  obtain ⟨t, h⟩ := exec_next i s
  exact ⟨t, h, exec_stream h⟩

/-- With the transport ready the bytes join TX at once (R86). -/
theorem exec_tx_of_free {i : Instr} {s t : State} (hs : TransportFree s) (h : exec i s = .next t) :
    t.tx = s.tx ++ pushedBytes i := by
  simpa [hs.txHeld, exec_txHeld hs h] using exec_stream h

/-- Settles O18: what a ready transport adds to TX is what is held back. -/
theorem blockedPushLeavesRegistersWritten : Obligations.BlockedPushLeavesRegistersWritten := by
  intro i s t hs h
  rw [exec_pushAll h false, pushAll_notReady rfl, exec_tx_of_free hs h, List.drop_left, hs.txHeld, List.nil_append]

end Sys2Proof.Machine
end

section
/-! PROOFS. O53: the mode changes by `C` and `B` alone (45_acquisition_control_fsm.md R190, 10_state.md R21). -/

namespace Sys2Proof.Machine

/-- A command row is fetched only where the finished line is that command (R73, R151). -/
theorem fetched_dispatches {s : State} {i : Instr} (hf : fetched s = some i) (hi : i.stream = .rx) : Dispatches s i := by
  cases fetched_case hf with
  | command _ hd => exact hd
  | byte1 v => exact nomatch (stream_hiInstr v).symm.trans hi
  | byte2 v cont last => exact nomatch (stream_loInstr v cont last).symm.trans hi

/-- The commands that write the mode, each with its value (R160, R161). -/
def WritesMode (i : Instr) (m : AcquisitionMode) : Prop :=
  ∃ d, i = .setContinuousMode d ∧ m = .continuous ∨ i = .setBurstMode d ∧ m = .burst

theorem WritesMode.stream {i : Instr} {m : AcquisitionMode} (h : WritesMode i m) : i.stream = .rx := by
  obtain ⟨d, ⟨rfl, -⟩ | ⟨rfl, -⟩⟩ := h <;> rfl

theorem exec_mode {i : Instr} {s t : State} (h : exec i s = .next t) (hne : t.mode ≠ s.mode) : WritesMode i t.mode := by
  cases i <;> cases h
  case setContinuousMode d => exact ⟨d, .inl ⟨rfl, rfl⟩⟩
  case setBurstMode d => exact ⟨d, .inr ⟨rfl, rfl⟩⟩
  all_goals exact absurd rfl hne

/-- The sequencer's bookkeeping after an instruction leaves the mode. -/
theorem retire_mode (s : State) : (retire s).mode = s.mode := by
  unfold retire
  split
  · obtain ⟨_, _, _, _, _, _, hr⟩ := retired_frame s
    rw [hr]
  · rfl

/-- A step of the CORE that changes the mode dispatches one of the two commands. -/
theorem CoreCase.writesMode {s t : State} (hc : CoreCase s t) (hne : t.mode ≠ s.mode) :
    s.txHeld = [] ∧ ∃ i, Dispatches s i ∧ WritesMode i t.mode := by
  cases hc with
  | issue i u hh hf hx =>
    rw [consumed_eq s] at hx
    rw [retire_mode] at hne ⊢
    have hw := exec_mode hx hne
    exact ⟨hh, i, fetched_dispatches hf hw.stream, hw⟩
  | push => exact absurd (retire_mode _) hne
  | poll => exact absurd (by rw [pollStep_eq]) hne
  | fillEnd => exact absurd (by rw [endFill_eq]) hne
  | _ => exact absurd rfl hne

/-- The same for a whole step: of the environment's acts only the power-on writes the mode. -/
theorem step_writesMode {s t : State} (h : step s = .next t) (hne : t.mode ≠ s.mode) :
    (∃ rest, s.schedule = .powerOn :: rest) ∨ s.txHeld = [] ∧ ∃ i, Dispatches s i ∧ WritesMode i t.mode := by
  rcases step_case h with ⟨-, hc⟩ | ⟨turn, rest, hs, hturn⟩
  · exact .inr (hc.writesMode hne)
  · rcases hturn with ⟨-, hc⟩ | ⟨b, -, rfl⟩ | ⟨-, rfl⟩ | ⟨r, -, rfl⟩ | ⟨rfl, -⟩
    · exact .inr (hc.writesMode hne)
    · exact absurd rfl hne
    · exact absurd rfl hne
    · exact absurd rfl hne
    · exact .inl ⟨rest, hs⟩

/-- Settles O53. -/
theorem modeChangesOnlyByCommand : Obligations.ModeChangesOnlyByCommand := by
  intro s t hstep hne
  refine (step_writesMode hstep hne).imp_right ?_
  rintro ⟨hh, i, ⟨hp, ⟨rest, hrx⟩, hd⟩, d, ⟨rfl, hmode⟩ | ⟨rfl, hmode⟩⟩
  · exact ⟨hp, hh, d, rest, hrx, .inl ⟨hd, hmode⟩⟩
  · exact ⟨hp, hh, d, rest, hrx, .inr ⟨hd, hmode⟩⟩

end Sys2Proof.Machine
end

section
/-! PROOFS. O54: the run state changes by its commands, and from `Single` to `Stop` with the last byte of a frame
(45_acquisition_control_fsm.md R185, R188, R190). -/

namespace Sys2Proof.Machine

/-- The commands that write the run state, each with its value (R162 to R164). -/
def WritesRunState (i : Instr) (r : RunState) : Prop :=
  i = .setRunStateStop ∧ r = .stop ∨ i = .setRunStateRun ∧ r = .run ∨ i = .setRunStateSingle ∧ r = .single

theorem exec_runState {i : Instr} {s t : State} (h : exec i s = .next t) (hne : t.runState ≠ s.runState) :
    WritesRunState i t.runState := by
  cases i <;> cases h
  case setRunStateStop => exact .inl ⟨rfl, rfl⟩
  case setRunStateRun => exact .inr (.inl ⟨rfl, rfl⟩)
  case setRunStateSingle => exact .inr (.inr ⟨rfl, rfl⟩)
  all_goals exact absurd rfl hne

/-- The byte to be sent is Byte 2 of the last sample of a frame (R185, R188). -/
def LastByteNext (s : State) : Prop :=
  s.micro = .low ∧
    (s.phase = .bXmit ∧ s.burstLength ≤ s.rdPtr + 1 ∨ s.phase = .cXmit ∧ s.params.nframe ≤ s.frameCount)

theorem singleToStop_changes {s : State} (hne : (singleToStop s).runState ≠ s.runState) :
    s.runState = .single ∧ (singleToStop s).runState = .stop := by
  by_cases hs : s.runState = .single <;> simp [hs] at hne ⊢

/-- `t` has just ended a `Single` run of `s`. -/
def StoppedSingle (s t : State) : Prop := s.runState = .single ∧ t.runState = .stop ∧ t.phase = .drain

theorem afterBurstPair_runState {s : State} (hne : (afterBurstPair s).runState ≠ s.runState) :
    s.burstLength ≤ s.rdPtr + 1 ∧ StoppedSingle s (afterBurstPair s) := by
  by_cases hmore : s.rdPtr + 1 < s.burstLength
  · exact absurd (by rw [afterBurstPair, if_pos hmore]) hne
  · rw [afterBurstPair, if_neg hmore] at hne ⊢
    obtain ⟨hsingle, hstop⟩ := singleToStop_changes hne
    exact ⟨Nat.le_of_not_lt hmore, hsingle, hstop, rfl⟩

theorem afterContPair_runState {s : State} (hne : (afterContPair s).runState ≠ s.runState) :
    s.params.nframe ≤ s.frameCount ∧ StoppedSingle s (afterContPair s) := by
  by_cases hlast : s.params.nframe ≤ s.frameCount
  · rw [afterContPair, if_pos hlast] at hne ⊢
    obtain ⟨hsingle, hstop⟩ := singleToStop_changes hne
    exact ⟨hlast, hsingle, hstop, rfl⟩
  · exact absurd (by rw [afterContPair, if_neg hlast, enter_runState]) hne

/-- What follows a byte changes the run state only after the last byte of a frame, and then from `Single` to `Stop`. -/
theorem retired_runState {s : State} (hne : (retired s).runState ≠ s.runState) :
    LastByteNext s ∧ StoppedSingle s (retired s) := by
  have byte1_keeps (ht : transmits s.phase = true) (hm : s.micro ≠ .low) : (retired s).runState = s.runState := by
    rw [retired_byte1 ht hm]
  cases hp : s.phase
  case bXmit =>
    have hm : s.micro = .low := not_not.mp fun hm => hne (byte1_keeps (by rw [hp]; rfl) hm)
    rw [retired_burst_byte2 hp hm] at hne ⊢
    obtain ⟨hlast, hend⟩ := afterBurstPair_runState hne
    exact ⟨⟨hm, .inl ⟨hp, hlast⟩⟩, hend⟩
  case cXmit =>
    have hm : s.micro = .low := not_not.mp fun hm => hne (byte1_keeps (by rw [hp]; rfl) hm)
    rw [retired_cont_byte2 hp hm] at hne ⊢
    obtain ⟨hlast, hend⟩ := afterContPair_runState hne
    exact ⟨⟨hm, .inr ⟨hp, hlast⟩⟩, hend⟩
  all_goals exact absurd (by simp [retired, hp, resetLine]) hne

/-- A step from `s` to `t` that sends the last byte of a frame and ends a `Single` run (R185, R188). -/
structure EndsSingleRun (s t : State) : Prop where
  last : LastByteNext s
  single : s.runState = .single
  stop : t.runState = .stop
  drain : t.phase = .drain
  sent : t.tx.length = s.tx.length + 1
  held : t.txHeld = []

/-- A byte of `s` that joins TX, and what follows it. -/
theorem EndsSingleRun.of_retired {s : State} {b : Byte}
    (hne : (retired { s with tx := s.tx ++ [b], txHeld := [] }).runState ≠ s.runState) :
    EndsSingleRun s (retired { s with tx := s.tx ++ [b], txHeld := [] }) := by
  obtain ⟨hlast, hsingle, hstop, hdrain⟩ := retired_runState hne
  obtain ⟨_, _, _, _, _, _, hframe⟩ := retired_frame { s with tx := s.tx ++ [b], txHeld := [] }
  exact ⟨hlast, hsingle, hstop, hdrain, by simp [hframe], by rw [hframe]⟩

/-- A wire byte that the transport takes ends the run or not; one that it holds back changes no register (R86). -/
theorem EndsSingleRun.of_push {s : State} {b : Byte} (hh : s.txHeld = [])
    (hne : (retire (txPush b s)).runState ≠ s.runState) : EndsSingleRun s (retire (txPush b s)) := by
  rcases Bool.eq_false_or_eq_true s.txReady with hr | hr
  · have hsent : retire (txPush b s) = retired { s with tx := s.tx ++ [b], txHeld := [] } := by
      rw [txPush_ready hr hh, hh]
      exact retire_of_txHeld_nil rfl
    rw [hsent] at hne ⊢
    exact .of_retired hne
  · have hwaits : retire (txPush b s) = txPush b s := by simp [retire, txPush_held (.inl hr)]
    exact absurd (by rw [hwaits, txPush_runState]) hne

/-- In DRAIN nothing that follows an instruction changes the run state. -/
theorem retire_runState_of_drain {s : State} (hp : s.phase = .drain) : (retire s).runState = s.runState := by
  unfold retire
  split
  · rw [retired_drain hp]
  · rfl

/-- An instruction that changes the run state: a command with its value, or the byte that ends the frame. -/
theorem FetchCase.runState {s u : State} {i : Instr} (hc : FetchCase s i) (hh : s.txHeld = [])
    (hx : exec i (consumed s) = .next u) (hne : (retire u).runState ≠ s.runState) :
    Dispatches s i ∧ WritesRunState i (retire u).runState ∨ EndsSingleRun s (retire u) := by
  have wire_ends (ht : transmits s.phase = true) (hi : i.stream = .tx) : EndsSingleRun s (retire u) := by
    rw [consumed_of_transmits ht] at hx
    obtain ⟨b, -, rfl⟩ := exec_wire hi hx
    exact .of_push hh hne
  cases hc with
  | command _ hd =>
    rw [consumed_drain hd.1] at hx
    obtain ⟨-, -, -, -, -, -, -, -, hphase, -⟩ := exec_untouched hx
    rw [retire_runState_of_drain (hphase.trans hd.1)] at hne ⊢
    exact .inl ⟨hd, exec_runState hx hne⟩
  | byte1 v ht => exact .inr (wire_ends ht (stream_hiInstr v))
  | byte2 v cont last ht => exact .inr (wire_ends ht (stream_loInstr v cont last))

/-- In a good state a step of the CORE changes the run state in these two ways alone. -/
theorem CoreCase.runState {s t : State} (hc : CoreCase s t) (h : GoodState s) (hne : t.runState ≠ s.runState) :
    (∃ i, Dispatches s i ∧ WritesRunState i t.runState) ∨ EndsSingleRun s t := by
  cases hc with
  | issue i u hh hf hx => exact ((fetched_case hf).runState hh hx hne).imp_left fun hw => ⟨i, hw⟩
  | push b held hh =>
    obtain ⟨rfl, -, -⟩ := h.wire.held_cons hh
    exact .inr (.of_retired hne)
  | readOutEnd _ hp hmi hf => exact absurd hf (h.fetched_ne_none hp hmi)
  | poll => exact absurd (by rw [pollStep_eq]) hne
  | fillEnd => exact absurd (by rw [endFill_eq]) hne
  | _ => exact absurd rfl hne

/-- The same for a whole step: of the environment's acts only the power-on writes the run state. -/
theorem step_runState {s t : State} (h : GoodState s) (hstep : step s = .next t) (hne : t.runState ≠ s.runState) :
    (∃ rest, s.schedule = .powerOn :: rest) ∨
      (∃ i, Dispatches s i ∧ WritesRunState i t.runState) ∨ EndsSingleRun s t := by
  rcases step_case hstep with ⟨-, hc⟩ | ⟨turn, rest, hs, hturn⟩
  · exact .inr (hc.runState h hne)
  · rcases hturn with ⟨-, hc⟩ | ⟨b, -, rfl⟩ | ⟨-, rfl⟩ | ⟨r, -, rfl⟩ | ⟨rfl, -⟩
    · have hu : GoodState { s with schedule := rest } := h.environment s.rx s.tickPending s.txReady rest
      exact .inr ((hc.runState hu hne).imp_right fun he => { he with })
    · exact absurd rfl hne
    · exact absurd rfl hne
    · exact absurd rfl hne
    · exact .inl ⟨rest, hs⟩

/-- Settles O54: the step by its cases; the read pointer of a good read-out is below the burst length, so the last byte of a
frame is that of its last entry. -/
theorem runStateChangesOnlyByCommandOrFrameEnd : Obligations.RunStateChangesOnlyByCommandOrFrameEnd := by
  intro s t h hstep hne
  refine (step_runState h hstep hne).imp_right (Or.imp ?command ?frameEnd)
  case command =>
    rintro ⟨i, ⟨hp, ⟨rest, hrx⟩, hd⟩, hw⟩
    exact ⟨hp, i, rest, hrx, hd, hw⟩
  case frameEnd =>
    rintro ⟨⟨hm, hlast⟩, hsingle, hstop, hdrain, hsent, hheld⟩
    refine ⟨hsingle, hstop, hm, hdrain, hsent, hheld, hlast.imp_left ?_⟩
    rintro ⟨hp, hlen⟩
    exact ⟨hp, Nat.le_antisymm (h.phases.readOut hp (by simp [hm])) hlen⟩

end Sys2Proof.Machine
end

section
/-! PROOFS. O40, O41: the two steps that send a Continuous sample (45_acquisition_control_fsm.md R187, R188; log 7). -/

namespace Sys2Proof.Machine

section
variable {s : State}

theorem fetched_cont_byte1 (hp : s.phase = .cXmit) (hmi : s.micro = .body) :
    fetched s = some (hiInstr (Memory.read s.buf 0)) := by
  simp [fetched, fetchedContByte, hp, hmi]

theorem fetched_cont_byte2 (hp : s.phase = .cXmit) (hmi : s.micro = .low) :
    fetched s = some (loInstr (Memory.read s.buf 0) true (decide (s.params.nframe ≤ s.frameCount))) := by
  simp [fetched, fetchedContByte, hp, hmi]

/-- Byte 1 of the live sample sent, and Byte 2 next (R142, R186). -/
def contByte1Sent (s : State) : State := { s with tx := s.tx ++ [byte1 (Memory.read s.buf 0)], micro := .low }

theorem coreStep_cont_byte1 (hfree : TransportFree s) (hp : s.phase = .cXmit) (hmi : s.micro = .body) :
    coreStep s = .next (contByte1Sent s) := by
  have ht : transmits s.phase = true := by rw [hp]; rfl
  rw [coreStep_wire_ready hfree ht (fetched_cont_byte1 hp hmi), encode_hiInstr]
  exact congrArg _ (retired_byte1 ht (by simp [hmi]))

/-- R187, R188: Byte 2 with the flag of a terminal sample or of any other, and then the count. -/
theorem coreStep_cont_byte2 (hfree : TransportFree s) (hp : s.phase = .cXmit) (hmi : s.micro = .low) :
    coreStep s = .next (afterContPair { s with
      tx := s.tx ++ [byte2 (Memory.read s.buf 0) true (decide (s.params.nframe ≤ s.frameCount))] }) := by
  have ht : transmits s.phase = true := by rw [hp]; rfl
  rw [coreStep_wire_ready hfree ht (fetched_cont_byte2 hp hmi), encode_loInstr]
  exact congrArg _ (retired_cont_byte2 hp hmi)

theorem wholeSend_terminal (h : s.params.nframe ≤ s.frameCount) : wholeSend s = singleToStop { s with
    tx := s.tx ++ [byte1 (Memory.read s.buf 0), byte2 (Memory.read s.buf 0) true true], frameCount := 0 } := by
  simp [wholeSend, h, encodeSample]

theorem wholeSend_nonTerminal (h : s.frameCount < s.params.nframe) : wholeSend s = { s with
    tx := s.tx ++ [byte1 (Memory.read s.buf 0), byte2 (Memory.read s.buf 0) true false],
    frameCount := s.frameCount + 1 } := by
  simp [wholeSend, Nat.not_le.mpr h, encodeSample]

/-- What follows the pair does what `SendTerminal` and `SendNonTerminal` do besides it. -/
theorem afterContPair_eq_wholeSend (s : State) :
    afterContPair { contByte1Sent s with
      tx := (contByte1Sent s).tx ++ [byte2 (Memory.read s.buf 0) true (decide (s.params.nframe ≤ s.frameCount))] } =
      enter .drain (wholeSend s) := by
  rw [contByte1Sent, List.append_assoc, List.singleton_append]
  rcases Nat.lt_or_ge s.frameCount s.params.nframe with h | h
  · rw [wholeSend_nonTerminal h, decide_eq_false (Nat.not_le.mpr h), afterContPair]
    exact if_neg (Nat.not_le.mpr h)
  · rw [wholeSend_terminal h, decide_eq_true h, afterContPair]
    exact if_pos h

/-- The whole transmission of the live sample, back to DRAIN. -/
theorem runSteps_wholeSend (hs : s.schedule = []) (hfree : TransportFree s) (hp : s.phase = .cXmit) (hmi : s.micro = .body) :
    runSteps 2 s = .next (enter .drain (wholeSend s)) := by
  rw [runSteps_next 1 hs (coreStep_cont_byte1 hfree hp hmi)]
  have hlow := coreStep_cont_byte2 (s := contByte1Sent s) ⟨hfree.txReady, hfree.txHeld⟩ hp rfl
  rw [runSteps_next (s := contByte1Sent s) 0 hs hlow, ← afterContPair_eq_wholeSend]
  rfl

end

/-- Settles O40: the mask of R141 for a non-terminal sample is 0x60. -/
theorem nonTerminalSampleCounts : Obligations.NonTerminalSampleCounts := by
  intro s hs hfree hp hmi hc
  rw [runSteps_wholeSend hs hfree hp hmi, wholeSend_nonTerminal hc]
  rfl

/-- Settles O41: the mask of R141 for the terminal sample is 0xa0. -/
theorem terminalSampleEndsTheFrame : Obligations.TerminalSampleEndsTheFrame := by
  intro s hs hfree hp hmi hc
  rw [runSteps_wholeSend hs hfree hp hmi, wholeSend_terminal hc]
  rfl

end Sys2Proof.Machine
end

section
/-! PROOFS. The tick transitions in two parts, what reads the ADC and what follows (45_acquisition_control_fsm.md R184,
R186), and what the reading part leaves alone. -/

namespace Sys2Proof.Machine

/-- A Burst transition once its fill is made: the frame is sent or not (R184, R185). -/
def afterFill (f : State) : State := if sendsFrame f then endFrame (wholeReadOut f) else enter .drain f

theorem tickBurst_eq (s : State) : tickBurst s = (wholeWait s).bind fun w => (wholeFill w).map afterFill := by
  unfold tickBurst
  cases wholeWait s
  case none => rfl
  case some w => cases hf : wholeFill w <;> simp [hf, afterFill]

/-- The wait that a Continuous transition makes at count 0 alone (R186). -/
def resync (s : State) : Option State := if s.frameCount = 0 then wholeWait s else some s

/-- A Continuous transition once its sample is read: the sample is sent or not (R186). -/
def afterAdvance (a : State) : State := enter .drain (if a.runState = .stop then a else wholeSend a)

theorem tickContinuous_eq (s : State) :
    tickContinuous s = (resync s).bind fun w => (wholeAdvance w).map afterAdvance := by
  unfold tickContinuous resync
  cases (if s.frameCount = 0 then wholeWait s else some s)
  case none => rfl
  case some w => cases ha : wholeAdvance w <;> simp [ha, afterAdvance]

/-- With run state Stop no frame is sent (R184, R191). -/
theorem afterFill_of_stop {f : State} (h : f.runState = .stop) : afterFill f = enter .drain f := by
  simp [afterFill, sendsFrame, h]

theorem afterAdvance_of_stop {a : State} (h : a.runState = .stop) : afterAdvance a = enter .drain a := by
  simp [afterAdvance, h]

theorem afterAdvance_of_running {a : State} (h : a.runState ≠ .stop) : afterAdvance a = enter .drain (wholeSend a) := by
  simp [afterAdvance, h]

/-! ### Each reading part by what it writes -/

/-- R100 to R105: a wait takes its reads and writes its own registers. -/
theorem wholeWait_frame {s w : State} (h : wholeWait s = some w) :
    ∃ draws log prev curr reads outcome, w = { s with
      adcDraws := draws, adcLog := log, trigPrev := prev, trigCurr := curr, retryCnt := reads, trigOutcome := outcome } := by
  by_cases hm : s.trigMode = .free
  · rw [wholeWait_free hm] at h
    cases h
    exact ⟨_, _, _, _, _, _, rfl⟩
  · rw [wholeWait_edge hm] at h
    obtain ⟨r, -, rfl⟩ := Option.map_eq_some_iff.mp h
    exact ⟨_, _, _, _, _, _, rfl⟩

/-- R122: a fill that the offered samples suffice for. -/
theorem wholeFill_of_le {s : State} (h : s.burstLength ≤ s.adcDraws.length) :
    wholeFill s = some { takeDraws s.burstLength s with
      buf := Memory.writeFrom s.buf 0 (s.adcDraws.take s.burstLength), wrPtr := s.burstLength } :=
  if_pos h

theorem wholeFill_stall {s : State} (h : s.adcDraws.length < s.burstLength) : wholeFill s = none :=
  if_neg (Nat.not_le.mpr h)

theorem wholeFill_frame {s f : State} (h : wholeFill s = some f) :
    ∃ draws log buf ptr, f = { s with adcDraws := draws, adcLog := log, buf := buf, wrPtr := ptr } := by
  rcases Nat.lt_or_ge s.adcDraws.length s.burstLength with hd | hd
  · rw [wholeFill_stall hd] at h
    cases h
  · rw [wholeFill_of_le hd] at h
    cases h
    exact ⟨_, _, _, _, rfl⟩

/-- One read, stored as the live sample (R123). -/
def advanced (v : Sample) (draws : List Sample) (s : State) : State :=
  { converted s draws with buf := Memory.write s.buf 0 v, wrPtr := 1 }

theorem wholeAdvance_cons {s : State} {v : Sample} {draws : List Sample} (h : s.adcDraws = v :: draws) :
    wholeAdvance s = some (advanced v draws s) := by
  simp [wholeAdvance, takeDraws, advanced, converted, h]

theorem wholeAdvance_stall {s : State} (h : s.adcDraws = []) : wholeAdvance s = none := by
  simp [wholeAdvance, h]

theorem wholeAdvance_frame {s a : State} (h : wholeAdvance s = some a) :
    ∃ draws log buf ptr, a = { s with adcDraws := draws, adcLog := log, buf := buf, wrPtr := ptr } := by
  cases hd : s.adcDraws with
  | nil =>
    rw [wholeAdvance_stall hd] at h
    cases h
  | cons v draws =>
    rw [wholeAdvance_cons hd] at h
    cases h
    exact ⟨_, _, _, _, rfl⟩

/-! ### The registers that sending reads or writes are left alone -/

/-- The registers of R187, R188 and R191, and the parameters. -/
def outputs (s : State) : Params × List Byte × Nat × RunState := (s.params, s.tx, s.frameCount, s.runState)

theorem wholeWait_outputs {s w : State} (h : wholeWait s = some w) : outputs w = outputs s := by
  obtain ⟨_, _, _, _, _, _, rfl⟩ := wholeWait_frame h
  rfl

theorem resync_outputs {s w : State} (h : resync s = some w) : outputs w = outputs s := by
  unfold resync at h
  split at h
  · exact wholeWait_outputs h
  · cases h
    rfl

theorem wholeFill_outputs {s f : State} (h : wholeFill s = some f) : outputs f = outputs s := by
  obtain ⟨_, _, _, _, rfl⟩ := wholeFill_frame h
  rfl

theorem wholeAdvance_outputs {s a : State} (h : wholeAdvance s = some a) : outputs a = outputs s := by
  obtain ⟨_, _, _, _, rfl⟩ := wholeAdvance_frame h
  rfl

/-- A Burst transition, its reading part named by the state it leaves. -/
theorem exists_of_tickBurst {s t : State} (h : tickBurst s = some t) : ∃ f, outputs f = outputs s ∧ t = afterFill f := by
  rw [tickBurst_eq] at h
  obtain ⟨w, hw, hfill⟩ := Option.bind_eq_some_iff.mp h
  obtain ⟨f, hf, rfl⟩ := Option.map_eq_some_iff.mp hfill
  exact ⟨f, (wholeFill_outputs hf).trans (wholeWait_outputs hw), rfl⟩

/-- The same for a Continuous transition. -/
theorem exists_of_tickContinuous {s t : State} (h : tickContinuous s = some t) :
    ∃ a, outputs a = outputs s ∧ t = afterAdvance a := by
  rw [tickContinuous_eq] at h
  obtain ⟨w, hw, hadvance⟩ := Option.bind_eq_some_iff.mp h
  obtain ⟨a, ha, rfl⟩ := Option.map_eq_some_iff.mp hadvance
  exact ⟨a, (wholeAdvance_outputs ha).trans (resync_outputs hw), rfl⟩

end Sys2Proof.Machine
end

section
/-! PROOFS. O44: a tick transition under run state Stop, and its conversions under any run state
(45_acquisition_control_fsm.md R190, R191). -/

namespace Sys2Proof.Machine

/-- R191: nothing is sent, nothing is counted. -/
theorem tick_outputs_of_stop {s t : State} (hstop : s.runState = .stop)
    (h : tickBurst s = some t ∨ tickContinuous s = some t) : outputs t = outputs s := by
  have stopped {u : State} (hu : outputs u = outputs s) : u.runState = .stop :=
    (congrArg (fun o => o.2.2.2) hu).trans hstop
  rcases h with h | h
  · obtain ⟨f, hf, rfl⟩ := exists_of_tickBurst h
    rw [afterFill_of_stop (stopped hf), ← hf]
    rfl
  · obtain ⟨a, ha, rfl⟩ := exists_of_tickContinuous h
    rw [afterAdvance_of_stop (stopped ha), ← ha]
    rfl

/-- The state with another run state. -/
def withRunState (r : RunState) (s : State) : State := { s with runState := r }

section
variable (r : RunState) (s : State)

/-- No reading part looks at the run state. -/
theorem wholeWait_withRunState : wholeWait (withRunState r s) = (wholeWait s).map (withRunState r) := by
  by_cases hm : s.trigMode = .free
  · rw [wholeWait_free hm, wholeWait_free (s := withRunState r s) hm]
    rfl
  · rw [wholeWait_edge hm, wholeWait_edge (s := withRunState r s) hm, Option.map_map]
    rfl

theorem resync_withRunState : resync (withRunState r s) = (resync s).map (withRunState r) := by
  by_cases hc : s.frameCount = 0
  · rw [resync, resync, if_pos hc, if_pos (show (withRunState r s).frameCount = 0 from hc), wholeWait_withRunState]
  · rw [resync, resync, if_neg hc, if_neg (show (withRunState r s).frameCount ≠ 0 from hc)]
    rfl

theorem wholeFill_withRunState : wholeFill (withRunState r s) = (wholeFill s).map (withRunState r) := by
  rcases Nat.lt_or_ge s.adcDraws.length s.burstLength with hd | hd
  · rw [wholeFill_stall hd, wholeFill_stall (s := withRunState r s) hd]
    rfl
  · rw [wholeFill_of_le hd, wholeFill_of_le (s := withRunState r s) hd]
    rfl

theorem wholeAdvance_withRunState : wholeAdvance (withRunState r s) = (wholeAdvance s).map (withRunState r) := by
  cases hd : s.adcDraws with
  | nil =>
    rw [wholeAdvance_stall hd, wholeAdvance_stall (s := withRunState r s) hd]
    rfl
  | cons v draws =>
    rw [wholeAdvance_cons hd, wholeAdvance_cons (s := withRunState r s) hd]
    rfl

end

/-- Sending makes no conversion (R83). -/
theorem afterFill_adcLog (f : State) : (afterFill f).adcLog = f.adcLog := by
  unfold afterFill
  split <;> rfl

theorem afterAdvance_adcLog (a : State) : (afterAdvance a).adcLog = a.adcLog := by
  unfold afterAdvance wholeSend
  dsimp only
  split
  · rfl
  · split <;> rfl

/-- A transition of two parts: a reading part that does not look at the run state, and a sending part that makes no
conversion. -/
theorem adcLog_withRunState (r : RunState) (wait : Option State) {read : State → Option State} {send : State → State}
    (hread : ∀ w, read (withRunState r w) = (read w).map (withRunState r)) (hsend : ∀ f, (send f).adcLog = f.adcLog) :
    ((wait.map (withRunState r)).bind fun w => (read w).map send).map (·.adcLog) =
      (wait.bind fun w => (read w).map send).map (·.adcLog) := by
  cases wait with
  | none => rfl
  | some w =>
    simp only [Option.map_some, Option.bind_some, hread, Option.map_map, Function.comp_def, hsend]
    rfl

/-- Settles O44. -/
theorem stopAcquiresButSendsNothing : Obligations.StopAcquiresButSendsNothing := by
  intro s r
  change _ ∧ (tickBurst (withRunState r s)).map _ = _ ∧ (tickContinuous (withRunState r s)).map _ = _
  refine ⟨fun t hstop h => ?sends, ?burst, ?continuous⟩
  case sends =>
    have hout := tick_outputs_of_stop hstop h
    simp only [outputs, Prod.mk.injEq] at hout
    obtain ⟨-, htx, hcount, hrun⟩ := hout
    exact ⟨htx, hcount, hrun.trans hstop⟩
  case burst =>
    rw [tickBurst_eq, tickBurst_eq, wholeWait_withRunState]
    exact adcLog_withRunState r _ (wholeFill_withRunState r) afterFill_adcLog
  case continuous =>
    rw [tickContinuous_eq, tickContinuous_eq, resync_withRunState]
    exact adcLog_withRunState r _ (wholeAdvance_withRunState r) afterAdvance_adcLog

end Sys2Proof.Machine
end

section
/-! PROOFS. O45: the samples of a Continuous frame (45_acquisition_control_fsm.md R187 to R189). -/

namespace Sys2Proof.Machine

/-- A tick with a run state other than Stop sends its sample (R186). -/
theorem exists_wholeSend_of_tickContinuous {s t : State} (hr : s.runState ≠ .stop) (h : tickContinuous s = some t) :
    ∃ a : State, a.params = s.params ∧ a.tx = s.tx ∧ a.frameCount = s.frameCount ∧ a.runState = s.runState ∧
      t = enter .drain (wholeSend a) := by
  obtain ⟨a, ha, rfl⟩ := exists_of_tickContinuous h
  simp only [outputs, Prod.mk.injEq] at ha
  obtain ⟨hparams, htx, hcount, hrun⟩ := ha
  exact ⟨a, hparams, htx, hcount, hrun, afterAdvance_of_running (hrun ▸ hr)⟩

/-- R187: one tick below NFRAME. -/
theorem tickContinuous_nonTerminal {s t : State} (hr : s.runState ≠ .stop) (hc : s.frameCount < s.params.nframe)
    (h : tickContinuous s = some t) :
    ∃ v, outputs t = (s.params, s.tx ++ [byte1 v, byte2 v true false], s.frameCount + 1, s.runState) := by
  obtain ⟨a, hparams, htx, hcount, hrun, rfl⟩ := exists_wholeSend_of_tickContinuous hr h
  rw [wholeSend_nonTerminal (by rwa [hparams, hcount]), ← hparams, ← htx, ← hcount, ← hrun]
  exact ⟨_, rfl⟩

/-- R188: one tick at NFRAME. -/
theorem tickContinuous_terminal {s t : State} (hr : s.runState ≠ .stop) (hc : s.params.nframe ≤ s.frameCount)
    (h : tickContinuous s = some t) :
    ∃ v, outputs t = (s.params, s.tx ++ [byte1 v, byte2 v true true], 0,
      if s.runState = .single then .stop else s.runState) := by
  obtain ⟨a, hparams, htx, hcount, hrun, rfl⟩ := exists_wholeSend_of_tickContinuous hr h
  rw [wholeSend_terminal (by rwa [hparams, hcount]), ← hparams, ← htx, ← hrun]
  exact ⟨_, rfl⟩

theorem wireFlag_byte1 (v : Sample) : wireFlag (byte1 v) = 0#3 := by
  rw [← wire_hi_eq_byte1, wireFlag_wire]

theorem wireFlag_byte2 (v : Sample) (cont last : Bool) : wireFlag (byte2 v cont last) = flagOf cont last := by
  rw [← wire_lo_eq_byte2, wireFlag_wire]

/-- `n` non-terminal samples and then the terminal one (R189). -/
structure ContFrame (n : Nat) (bytes : List Byte) : Prop where
  length : bytes.length = 2 * n + 2
  flags : ∀ k, k ≤ n → bytes[2 * k]?.map wireFlag = some 0b000#3 ∧
    bytes[2 * k + 1]?.map wireFlag = some (if k = n then 0b101#3 else 0b011#3)

theorem ContFrame.terminal (v : Sample) : ContFrame 0 [byte1 v, byte2 v true true] where
  length := rfl
  flags k hk := by
    obtain rfl := Nat.le_zero.mp hk
    simp [wireFlag_byte1, wireFlag_byte2, flagOf]

theorem ContFrame.nonTerminal {n : Nat} {bytes : List Byte} (h : ContFrame n bytes) (v : Sample) :
    ContFrame (n + 1) (byte1 v :: byte2 v true false :: bytes) where
  length := by simp [h.length]; omega
  flags k hk := by
    cases k with
    | zero => simp [wireFlag_byte1, wireFlag_byte2, flagOf]
    | succ k => simpa [Nat.mul_succ] using h.flags k (Nat.le_of_succ_le_succ hk)

/-- What is left of a frame with `n` non-terminal samples to go. -/
theorem contTicks_frame {n : Nat} {s t : State} (hr : s.runState ≠ .stop) (hc : s.frameCount + n = s.params.nframe)
    (h : contTicks (n + 1) s = some t) :
    t.frameCount = 0 ∧ (t.runState = if s.runState = .single then .stop else s.runState) ∧
      ∃ bytes, t.tx = s.tx ++ bytes ∧ ContFrame n bytes := by
  induction n generalizing s with
  | zero =>
    obtain ⟨u, hu, hrest⟩ := Option.bind_eq_some_iff.mp h
    obtain rfl := Option.some.inj hrest
    obtain ⟨v, hv⟩ := tickContinuous_terminal hr hc.ge hu
    simp only [outputs, Prod.mk.injEq] at hv
    obtain ⟨-, htx, hcount, hrun⟩ := hv
    exact ⟨hcount, hrun, _, htx, .terminal v⟩
  | succ n ih =>
    obtain ⟨u, hu, hrest⟩ := Option.bind_eq_some_iff.mp h
    obtain ⟨v, hv⟩ := tickContinuous_nonTerminal hr (by omega) hu
    simp only [outputs, Prod.mk.injEq] at hv
    obtain ⟨hparams, htx, hcount, hrun⟩ := hv
    obtain ⟨hcount', hrun', bytes, htx', hframe⟩ := ih (hrun ▸ hr) (by rw [hcount, hparams]; omega) hrest
    refine ⟨hcount', hrun ▸ hrun', _, ?_, hframe.nonTerminal v⟩
    rw [htx', htx, List.append_assoc]
    rfl

/-- Settles O45: a whole frame has NFRAME non-terminal samples to go. -/
theorem continuousFrameHasOneMoreSample : Obligations.ContinuousFrameHasOneMoreSample := by
  intro s t hc hr h
  obtain ⟨hcount, hrun, bytes, htx, hframe⟩ := contTicks_frame hr (by rw [hc, Nat.zero_add]) h
  exact ⟨hcount, hrun, bytes, htx, hframe.length, hframe.flags⟩

end Sys2Proof.Machine
end

section
/-! PROOFS. O42, O43: the steps of the CORE against the tick transitions as atomic steps (45_acquisition_control_fsm.md R182,
R184, R186, R208; logs 3 and 7). -/

namespace Sys2Proof.Machine

/-! ### Runs that end as a whole function says -/

/-- What the machine answers where a whole function has this result: it stalls where the function has none (R208; log 3). -/
def answer : Option State → Result
  | some t => .next t
  | none => .fault .hardwareStall

/-- The steps from `s` come to the answer of `o`. -/
def Performs (s : State) (o : Option State) : Prop := ∃ k, runSteps k s = answer o

namespace Performs

variable {s t : State} {o : Option State}

theorem refines (h : Performs s o) :
    (∀ t, o = some t → ∃ k, runSteps k s = .next t) ∧ (o = none → ∃ k, runSteps k s = .fault .hardwareStall) := by
  constructor
  · rintro t rfl
    exact h
  · rintro rfl
    exact h

theorem of_run {k : Nat} (h : runSteps k s = .next t) (ht : Performs t o) : Performs s o := by
  obtain ⟨m, hm⟩ := ht
  exact ⟨k + m, (runSteps_add k m h).trans hm⟩

theorem of_step (hs : s.schedule = []) (h : coreStep s = .next t) (ht : Performs t o) : Performs s o :=
  of_run (k := 1) (runSteps_next 0 hs h) ht

theorem done (t : State) : Performs t (some t) := ⟨0, rfl⟩

theorem stall (hs : s.schedule = []) (h : coreStep s = .fault .hardwareStall) : Performs s none :=
  ⟨1, runSteps_fault 0 hs h⟩

/-- Two whole functions one after the other: the steps of the first end where those of the second begin. -/
theorem bind {f : State → Option State} {goOn : State → State} (h : Performs s (o.map goOn))
    (hnext : ∀ w, o = some w → Performs (goOn w) (f w)) : Performs s (o.bind f) := by
  cases o with
  | none => exact h
  | some w =>
    obtain ⟨k, hk⟩ := h
    exact of_run hk (hnext w rfl)

theorem map {f goOn : State → State} (h : Performs s (o.map goOn))
    (hnext : ∀ w, o = some w → Performs (goOn w) (some (f w))) : Performs s (o.map f) := by
  rw [Option.map_eq_bind]
  exact bind h hnext

end Performs

/-! ### The trigger wait -/

/-- The state after the iterations of a wait with result `r`, the reads before them counted (R102). -/
def scanned (s : State) (r : WaitResult) : State :=
  { takeDraws r.reads s with
    trigPrev := r.prev, trigCurr := r.curr, retryCnt := s.retryCnt + r.reads, trigOutcome := r.outcome }

/-- A miss and then the rest of the wait. -/
theorem scanned_cons {s : State} {v : Sample} {draws : List Sample} (hd : s.adcDraws = v :: draws) (r : WaitResult) :
    scanned s { r with reads := r.reads + 1 } = scanned (shiftSample v (converted s draws)) r := by
  simp [scanned, takeDraws, shiftSample, converted, hd, List.replicate_succ, Nat.add_comm, Nat.add_left_comm]

/-- A hit. -/
theorem scanned_hit {s : State} {v : Sample} {draws : List Sample} (hd : s.adcDraws = v :: draws) :
    scanned s { outcome := .satisfied, reads := 1, prev := s.trigCurr, curr := v } =
      { shiftSample v (converted s draws) with trigOutcome := .satisfied } := by
  simp [scanned, takeDraws, shiftSample, converted, hd]

theorem scanned_timeout (s : State) :
    scanned s { outcome := .timedOut, reads := 0, prev := s.trigPrev, curr := s.trigCurr } =
      { s with trigOutcome := .timedOut } := by
  simp [scanned, takeDraws]

section
variable {s : State} {after : Phase}

/-- A wait that has begun goes on with its next iteration. -/
theorem coreStep_wait_body (hw : (s.phase, after) ∈ waitPhases) (hh : s.txHeld = []) (hm : s.trigMode ≠ .free)
    (hmi : s.micro = .body) : coreStep s = waitIteration after s :=
  (coreStep_wait hw hh).trans (waitStep_body hm hmi)

/-- R102 to R106: the iterations that are left of a wait, by the budget that is left. -/
theorem performs_scanEdges {budget : Nat} (hw : (s.phase, after) ∈ waitPhases) (hs : s.schedule = []) (hh : s.txHeld = [])
    (hm : s.trigMode ≠ .free) (hmi : s.micro = .body) (hb : s.retryCnt + budget = s.params.retryLimit) :
    Performs s ((scanEdges s.trigMode s.trigLevel budget s.trigPrev s.trigCurr s.adcDraws).map
      fun r => enter after (scanned s r)) := by
  induction budget generalizing s with
  | zero =>
    have hstep := coreStep_wait_body hw hh hm hmi
    refine .of_step hs (hstep.trans (waitIteration_timeout hb.ge)) ?_
    rw [scanEdges, Option.map_some, scanned_timeout]
    exact .done _
  | succ budget ih =>
    have hstep := coreStep_wait_body hw hh hm hmi
    cases hd : s.adcDraws with
    | nil => exact .stall hs (hstep.trans (waitIteration_stall (by omega) hd))
    | cons v draws =>
      refine .of_step hs (hstep.trans (waitIteration_read (by omega) hd)) ?_
      cases hfire : edgeFires s.trigMode s.trigLevel s.trigCurr v
      case true =>
        simp only [scanEdges, hfire, if_true, Option.map_some, scanned_hit hd]
        exact .done _
      case false =>
        rw [scanEdges_miss hfire, Option.map_map, if_neg Bool.false_ne_true]
        simp only [Function.comp_def, scanned_cons hd]
        have hleft : s.retryCnt + 1 + budget = s.params.retryLimit := by omega
        exact ih (s := shiftSample v (converted s draws)) hw hs hh hm hmi hleft

/-- The steps of a whole wait (R106). -/
theorem performs_wholeWait (hw : (s.phase, after) ∈ waitPhases) (hs : s.schedule = []) (hh : s.txHeld = [])
    (hmi : s.micro = .start) : Performs s ((wholeWait s).map (enter after)) := by
  by_cases hm : s.trigMode = .free
  · rw [wholeWait_free hm]
    exact .of_step hs ((coreStep_wait hw hh).trans (waitStep_free hm)) (.done _)
  · rw [wholeWait_edge hm, Option.map_map]
    refine .of_step hs ((coreStep_wait hw hh).trans (waitStep_start hm hmi)) ?_
    have hscan := performs_scanEdges (s := beginWait s) hw hs hh hm rfl (Nat.zero_add _)
    have hcount (r : WaitResult) : enter after (scanned (beginWait s) r) = enter after (waited s r) := by
      rw [scanned, show (beginWait s).retryCnt + r.reads = r.reads from Nat.zero_add _]
      rfl
    simp only [hcount] at hscan
    exact hscan

end

/-! ### The Burst transition -/

section
variable {s : State}

/-- R208: the read of an entry that is never answered. -/
theorem fillStep_stall (hmi : s.micro = .body) (hw : s.wrPtr < s.burstLength) (hd : s.adcDraws = []) :
    fillStep s = .fault .hardwareStall := by
  simp only [fillStep, hmi, if_pos hw, adcRead, hd]

/-- The steps of a whole fill (R122). -/
theorem performs_wholeFill (hs : s.schedule = []) (hh : s.txHeld = []) (hp : s.phase = .bFill) (hmi : s.micro = .start)
    (hn : s.burstLength ≤ s.params.nframe) : Performs s ((wholeFill s).map endFill) := by
  rcases Nat.lt_or_ge s.adcDraws.length s.burstLength with hd | hd
  · rw [wholeFill_stall hd]
    refine .of_run (runSteps_filledTo hs hh hp hmi hn hd.le le_rfl) (.stall hs ?_)
    rw [coreStep_bFill (s := filledTo s.adcDraws.length s) hh hp]
    exact fillStep_stall rfl hd List.drop_length
  · rw [wholeFill_of_le hd]
    refine .of_run (runSteps_wholeFill hs hh hp hmi hn hd) ?_
    rw [endFill_eq, Option.map_some, endFill_eq]
    exact .done _

/-- The steps that follow a whole fill (R184, R185). -/
theorem performs_afterFill (hs : s.schedule = []) (hfree : TransportFree s) (hpos : 1 ≤ s.burstLength)
    (hn : s.burstLength ≤ s.params.nframe) : Performs (endFill s) (some (afterFill s)) := by
  by_cases hsend : sendsFrame s = true
  · rw [endFill, if_pos hsend, afterFill, if_pos hsend]
    exact .of_run (runSteps_wholeReadOut (s := enter .bXmit s) hs ⟨hfree.txReady, hfree.txHeld⟩ rfl rfl hpos hn) (.done _)
  · rw [endFill, if_neg hsend, afterFill, if_neg hsend]
    exact .done _

/-- The phase in which a fill begins makes no difference to a transition that ends in DRAIN. -/
theorem wholeFill_enter (p : Phase) : (wholeFill (enter p s)).map afterFill = (wholeFill s).map afterFill := by
  rcases Nat.lt_or_ge s.adcDraws.length s.burstLength with hd | hd
  · rw [wholeFill_stall hd, wholeFill_stall (s := enter p s) hd]
  · rw [wholeFill_of_le hd, wholeFill_of_le (s := enter p s) hd]
    rfl

/-- B_FILL and B_XMIT as one (R184). -/
theorem performs_fillAndSend (hs : s.schedule = []) (hfree : TransportFree s) (hp : s.phase = .bFill) (hmi : s.micro = .start)
    (hpos : 1 ≤ s.burstLength) (hn : s.burstLength ≤ s.params.nframe) : Performs s ((wholeFill s).map afterFill) := by
  refine (performs_wholeFill hs hfree.txHeld hp hmi hn).map fun f hf => ?_
  obtain ⟨_, _, _, _, rfl⟩ := wholeFill_frame hf
  exact performs_afterFill hs ⟨hfree.txReady, hfree.txHeld⟩ hpos hn

end

/-- Settles O42: the wait, then the fill and the read-out from the state that the wait leaves. -/
theorem burstTransitionRefinesTickBurst : Obligations.BurstTransitionRefinesTickBurst := by
  intro s hs hfree hp hmi hpos hn
  have hw : (s.phase, Phase.bFill) ∈ waitPhases := by rw [hp]; decide
  refine Performs.refines ?_
  rw [tickBurst_eq]
  refine (performs_wholeWait hw hs hfree.txHeld hmi).bind fun w hwait => ?_
  obtain ⟨_, _, _, _, _, _, rfl⟩ := wholeWait_frame hwait
  rw [← wholeFill_enter .bFill]
  exact performs_fillAndSend hs ⟨hfree.txReady, hfree.txHeld⟩ rfl rfl hpos hn

/-! ### The Continuous transition -/

section
variable {s : State}

/-- The phase in which the sample is read or sent makes no difference to a transition that ends in DRAIN. -/
theorem enter_drain_wholeSend_enter (p : Phase) : enter .drain (wholeSend (enter p s)) = enter .drain (wholeSend s) := by
  rcases Nat.lt_or_ge s.frameCount s.params.nframe with h | h
  · rw [wholeSend_nonTerminal h, wholeSend_nonTerminal (s := enter p s) h]
    rfl
  · rw [wholeSend_terminal h, wholeSend_terminal (s := enter p s) h]
    rfl

theorem afterAdvance_enter (p : Phase) : afterAdvance (enter p s) = afterAdvance s := by
  by_cases hr : s.runState = .stop
  · rw [afterAdvance_of_stop hr, afterAdvance_of_stop (a := enter p s) hr]
    rfl
  · rw [afterAdvance_of_running hr, afterAdvance_of_running (a := enter p s) hr, enter_drain_wholeSend_enter]

theorem wholeAdvance_enter (p : Phase) : (wholeAdvance (enter p s)).map afterAdvance = (wholeAdvance s).map afterAdvance := by
  cases hd : s.adcDraws with
  | nil => rw [wholeAdvance_stall hd, wholeAdvance_stall (s := enter p s) hd]
  | cons v draws =>
    rw [wholeAdvance_cons hd, wholeAdvance_cons (s := enter p s) hd]
    exact congrArg some (afterAdvance_enter (s := advanced v draws s) p)

/-- R208: the read of the live sample that is never answered. -/
theorem advanceOne_stall (hd : s.adcDraws = []) : advanceOne s = .fault .hardwareStall := by
  simp only [advanceOne, adcRead, hd]

/-- The steps that follow the read (R186). -/
theorem performs_afterAdvance (hs : s.schedule = []) (hfree : TransportFree s) :
    Performs (enter (if s.runState = .stop then .drain else .cXmit) s) (some (afterAdvance s)) := by
  by_cases hr : s.runState = .stop
  · rw [if_pos hr, afterAdvance_of_stop hr]
    exact .done _
  · rw [if_neg hr, afterAdvance_of_running hr, ← enter_drain_wholeSend_enter .cXmit]
    exact .of_run (runSteps_wholeSend (s := enter .cXmit s) hs ⟨hfree.txReady, hfree.txHeld⟩ rfl rfl) (.done _)

/-- C_READ and C_XMIT as one (R186). -/
theorem performs_advanceAndSend (hs : s.schedule = []) (hfree : TransportFree s) (hp : s.phase = .cRead) :
    Performs s ((wholeAdvance s).map afterAdvance) := by
  have hstep : coreStep s = advanceOne s := coreStep_cRead hfree.txHeld hp
  cases hd : s.adcDraws with
  | nil =>
    rw [wholeAdvance_stall hd]
    exact .stall hs (hstep.trans (advanceOne_stall hd))
  | cons v draws =>
    rw [wholeAdvance_cons hd]
    exact .of_step hs (hstep.trans (advanceOne_cons hd))
      (performs_afterAdvance (s := advanced v draws s) hs ⟨hfree.txReady, hfree.txHeld⟩)

end

/-- Settles O43: at count 0 the wait comes first, and above it the read. -/
theorem continuousTransitionRefinesTickContinuous : Obligations.ContinuousTransitionRefinesTickContinuous := by
  intro s hs hfree hmi hp
  refine Performs.refines ?_
  rw [tickContinuous_eq, resync]
  by_cases hc : s.frameCount = 0
  · rw [if_pos hc] at hp ⊢
    have hw : (s.phase, Phase.cRead) ∈ waitPhases := by rw [hp]; decide
    refine (performs_wholeWait hw hs hfree.txHeld hmi).bind fun w hwait => ?_
    obtain ⟨_, _, _, _, _, _, rfl⟩ := wholeWait_frame hwait
    rw [← wholeAdvance_enter .cRead]
    exact performs_advanceAndSend hs ⟨hfree.txReady, hfree.txHeld⟩ rfl
  · rw [if_neg hc] at hp ⊢
    exact performs_advanceAndSend hs hfree hp

end Sys2Proof.Machine
end

section
/-! PROOFS. O52: the two stuck states of the CORE, and a next state everywhere else (60_exceptions.md R201, R208,
40_ports_and_collaborators.md R86; logs 3 and 4). -/

namespace Sys2Proof.Machine

/-! ### Results that stop in one case alone -/

/-- The fault `f` where `stuck` holds, and a next state where it does not. -/
inductive StopsWhen (f : Fault) (stuck : Prop) : Result → Prop where
  | fault (h : stuck) : StopsWhen f stuck (.fault f)
  | next (h : ¬stuck) (t : State) : StopsWhen f stuck (.next t)

namespace StopsWhen
variable {f : Fault} {stuck : Prop} {r : Result}

theorem of_fault (hr : r = .fault f) (h : stuck) : StopsWhen f stuck r :=
  hr ▸ .fault h

theorem of_next (hr : ∃ t, r = .next t) (h : ¬stuck) : StopsWhen f stuck r := by
  obtain ⟨t, rfl⟩ := hr
  exact .next h t

theorem ne_refused (h : StopsWhen f stuck r) (why : Refusal) : r ≠ .refused why := by
  cases h <;> exact nofun

theorem eq_fault_iff (h : StopsWhen f stuck r) (g : Fault) : r = .fault g ↔ g = f ∧ stuck := by
  cases h with
  | fault h => simp [h, eq_comm]
  | next h t => simp [h]

end StopsWhen

/-! ### Which steps make a conversion (R83) -/

section
variable {s : State} {after : Phase}

/-- The CORE's next step makes a conversion that is never answered (R208; log 3). -/
def Stalled (s : State) : Prop := s.adcDraws = [] ∧ readsAdc s

theorem readsAdc_wait (hw : (s.phase, after) ∈ waitPhases) :
    readsAdc s ↔ s.trigMode ≠ .free ∧ s.micro ≠ .start ∧ s.retryCnt < s.params.retryLimit := by
  simp only [waitPhases, List.mem_cons, Prod.mk.injEq, List.not_mem_nil, or_false] at hw
  rcases hw with ⟨hp, -⟩ | ⟨hp, -⟩ <;> simp [readsAdc, hp]

theorem readsAdc_bFill (hp : s.phase = .bFill) : readsAdc s ↔ s.micro ≠ .start ∧ s.wrPtr < s.burstLength := by
  simp [readsAdc, hp]

theorem readsAdc_cRead (hp : s.phase = .cRead) : readsAdc s := .inr (.inr hp)

theorem not_stalled_of_phase (hp : s.phase ∈ [.drain, .poll, .bXmit, .cXmit]) : ¬Stalled s := by
  simp only [List.mem_cons, List.not_mem_nil, or_false] at hp
  rintro ⟨-, hreads⟩
  rcases hp with hp | hp | hp | hp <;> simp [readsAdc, hp] at hreads

/-- Outside the transmitting phases an operation that has begun is in its body (log 7). -/
theorem PhaseInv.micro_eq_body (h : PhaseInv s) (hq : transmits s.phase = false) (hmi : s.micro ≠ .start) :
    s.micro = .body := by
  have hlow := h.micro_ne_low hq
  cases hm : s.micro
  case start => exact absurd hm hmi
  case body => rfl
  case low => exact absurd hm hlow

theorem transmits_waitPhase {p : Phase} (hw : (p, after) ∈ waitPhases) : transmits p = false := by
  simp only [waitPhases, List.mem_cons, Prod.mk.injEq, List.not_mem_nil, or_false] at hw
  rcases hw with ⟨rfl, -⟩ | ⟨rfl, -⟩ <;> rfl

/-! ### The phases that read the ADC -/

/-- R100 to R105, R208: of the wait only an iteration within the budget can stall. -/
theorem PhaseInv.stopsWhen_wait (h : PhaseInv s) (hh : s.txHeld = []) (hw : (s.phase, after) ∈ waitPhases) :
    StopsWhen .hardwareStall (Stalled s) (coreStep s) := by
  rw [coreStep_wait hw hh, Stalled, readsAdc_wait hw]
  by_cases hm : s.trigMode = .free
  · exact .of_next ⟨_, waitStep_free hm⟩ (by simp [hm])
  by_cases hmi : s.micro = .start
  · exact .of_next ⟨_, waitStep_start hm hmi⟩ (by simp [hmi])
  rw [waitStep_body hm (h.micro_eq_body (transmits_waitPhase hw) hmi)]
  rcases Nat.lt_or_ge s.retryCnt s.params.retryLimit with hc | hc
  · cases hd : s.adcDraws
    case nil => exact .of_fault (waitIteration_stall hc hd) ⟨rfl, hm, hmi, hc⟩
    case cons => exact .of_next ⟨_, waitIteration_read hc hd⟩ (by simp)
  · exact .of_next ⟨_, waitIteration_timeout hc⟩ (by simp [hc.not_gt])

/-- R120 to R122, R208: of the fill only the read of an entry can stall; the entry is inside the store (R41). -/
theorem GoodState.stopsWhen_fill (h : GoodState s) (hh : s.txHeld = []) (hp : s.phase = .bFill) :
    StopsWhen .hardwareStall (Stalled s) (coreStep s) := by
  rw [coreStep_bFill hh hp, Stalled, readsAdc_bFill hp]
  by_cases hmi : s.micro = .start
  · exact .of_next ⟨_, fillStep_start hmi⟩ (by simp [hmi])
  have hbody : s.micro = .body := h.phases.micro_eq_body (by rw [hp]; rfl) hmi
  rcases Nat.lt_or_ge s.wrPtr s.burstLength with hw | hw
  · cases hd : s.adcDraws
    case nil => exact .of_fault (fillStep_stall hbody hw hd) ⟨rfl, hmi, hw⟩
    case cons => exact .of_next ⟨_, fillStep_entry hbody hw h.registers.burstLength_le_nframe hd⟩ (by simp)
  · exact .of_next ⟨_, fillStep_end hbody hw⟩ (by simp [hw.not_gt])

/-- R123, R208. -/
theorem stopsWhen_advance (hh : s.txHeld = []) (hp : s.phase = .cRead) :
    StopsWhen .hardwareStall (Stalled s) (coreStep s) := by
  rw [coreStep_cRead hh hp, Stalled]
  cases hd : s.adcDraws
  case nil => exact .of_fault (advanceOne_stall hd) ⟨rfl, readsAdc_cRead hp⟩
  case cons => exact .of_next ⟨_, advanceOne_cons hd⟩ (by simp)

/-! ### The phases that always answer a next state -/

/-- Every instruction that is fetched is performed (R168). -/
theorem exists_coreStep_of_fetched (hh : s.txHeld = []) (hf : fetched s ≠ none) : ∃ t, coreStep s = .next t := by
  obtain ⟨i, hi⟩ := Option.ne_none_iff_exists'.mp hf
  obtain ⟨u, hx⟩ := exec_next i (consumed s)
  exact ⟨_, coreStep_issue hh hi hx⟩

/-- R150 to R155, R181: the drain ends, dispatches, passes over a line, or stores a byte inside the buffer (R43). -/
theorem exists_coreStep_drain (hlen : s.lineLen < Config.lineMax) (hh : s.txHeld = []) (hp : s.phase = .drain) :
    ∃ t, coreStep s = .next t := by
  cases hrx : s.rx
  case nil => exact ⟨_, coreStep_drain_empty hh hp hrx⟩
  case cons b rest =>
    by_cases hb : b = newline
    case neg => exact ⟨_, coreStep_store hh hp hrx hb hlen⟩
    case pos =>
      subst hb
      cases hd : decodeLine (lineContent s)
      case run i =>
        obtain ⟨u, hx⟩ := exec_next i { s with rx := rest }
        exact ⟨_, coreStep_dispatch hh hp hrx hd hx⟩
      case reject r => exact ⟨_, coreStep_ignored hh hp hrx hd⟩

/-- R124: the read-out begins, or it has a byte to send. -/
theorem GoodState.exists_coreStep_bXmit (h : GoodState s) (hh : s.txHeld = []) (hp : s.phase = .bXmit) :
    ∃ t, coreStep s = .next t := by
  by_cases hmi : s.micro = .start
  · exact ⟨_, coreStep_readOut_start hh hp hmi⟩
  · exact exists_coreStep_of_fetched hh (h.fetched_ne_none hp hmi)

/-! ### The CORE's step -/

/-- R208: with no push in progress, the phases that read the ADC stall, and the others never stop. -/
theorem GoodState.stopsWhen_stalled (h : GoodState s) (hh : s.txHeld = []) :
    StopsWhen .hardwareStall (Stalled s) (coreStep s) := by
  cases hp : s.phase
  case drain => exact .of_next (exists_coreStep_drain h.registers.lineLen hh hp) (not_stalled_of_phase (by simp [hp]))
  case poll => exact .of_next ⟨_, coreStep_poll hh hp⟩ (not_stalled_of_phase (by simp [hp]))
  case bTrig => exact h.phases.stopsWhen_wait (after := .bFill) hh (by simp [waitPhases, hp])
  case bFill => exact h.stopsWhen_fill hh hp
  case bXmit => exact .of_next (h.exists_coreStep_bXmit hh hp) (not_stalled_of_phase (by simp [hp]))
  case cTrig => exact h.phases.stopsWhen_wait (after := .cRead) hh (by simp [waitPhases, hp])
  case cRead => exact stopsWhen_advance hh hp
  case cXmit => exact .of_next (exists_coreStep_of_fetched hh (fetched_cXmit hp)) (not_stalled_of_phase (by simp [hp]))

/-- R86, R244: with a push in progress, the CORE hangs while the transport is not ready. -/
theorem stopsWhen_held {b : Byte} {held : List Byte} (hh : s.txHeld = b :: held) :
    StopsWhen .transportHang (s.txReady = false) (coreStep s) := by
  rw [coreStep_held hh]
  cases hr : s.txReady
  case false => exact .of_fault (completePush_blocked b held hr) rfl
  case true => exact .of_next ⟨_, completePush_ready b held hr⟩ nofun

/-- The CORE's two stuck states with their faults (R208, R244). -/
def CoreStuck (s : State) (f : Fault) : Prop :=
  f = .transportHang ∧ s.txHeld ≠ [] ∧ s.txReady = false ∨
    f = .hardwareStall ∧ s.txHeld = [] ∧ s.adcDraws = [] ∧ readsAdc s

/-- R41, R201: no other fault, and no refusal. -/
theorem GoodState.coreStep_stops_iff (h : GoodState s) :
    (∀ r, coreStep s ≠ .refused r) ∧ ∀ f, coreStep s = .fault f ↔ CoreStuck s f := by
  cases hh : s.txHeld
  case nil =>
    have hstop := h.stopsWhen_stalled hh
    exact ⟨hstop.ne_refused, fun f => (hstop.eq_fault_iff f).trans (by simp [CoreStuck, Stalled, hh])⟩
  case cons b held =>
    have hstop := stopsWhen_held hh
    exact ⟨hstop.ne_refused, fun f => (hstop.eq_fault_iff f).trans (by simp [CoreStuck, hh])⟩

/-! ### The machine's step -/

theorem coreMoves_cons_iff {turn : Turn} {rest : List Turn} (hs : s.schedule = turn :: rest) :
    coreMoves s ↔ turn = .core := by
  simp [coreMoves, hs]

/-- An act of the environment never stops the machine (R51). -/
theorem exists_turnStep_of_ne_core {turn : Turn} (hturn : turn ≠ .core) (s : State) : ∃ t, turnStep turn s = .next t := by
  cases turn
  case core => exact absurd rfl hturn
  all_goals exact ⟨_, rfl⟩

end

/-- Settles O52: the CORE's step stops exactly in its two stuck states, and an act of the environment never does. -/
theorem stepStopsExactlyWhenStuck : Obligations.StepStopsExactlyWhenStuck := by
  intro s h
  change (∀ r, step s ≠ .refused r) ∧ ∀ f, step s = .fault f ↔ coreMoves s ∧ CoreStuck s f
  cases hs : s.schedule
  case nil =>
    rw [step_of_no_turn hs]
    simpa only [show coreMoves s from .inl hs, true_and] using h.coreStep_stops_iff
  case cons turn rest =>
    rw [step_of_turn hs]
    simp only [coreMoves_cons_iff hs]
    by_cases hturn : turn = .core
    · subst hturn
      simp only [true_and]
      exact (h.environment s.rx s.tickPending s.txReady rest).coreStep_stops_iff
    · obtain ⟨t, ht⟩ := exists_turnStep_of_ne_core hturn { s with schedule := rest }
      simp [ht, hturn]

end Sys2Proof.Machine
end

section
/-! PROOFS. O3: the lines that are no command, by the name of the rejection (60_exceptions.md R206, R207). -/

namespace Sys2Proof.Machine

/-- The letters of R206 are those that the decoder tries. -/
theorem mem_letters_iff {op : Byte} :
    op ∈ [0x43#8, 0x42#8, 0x52#8, 0x54#8, 0x47#8, 0x41#8] ↔ WellFormed.letterDefined op = true := by
  simp [letterDefined_iff]

/-- R62, R64 (c): a digit operand is run, or its argument is rejected. -/
theorem withDigit_cases (w dmax : Nat) (arg : Byte) (form : BitVec w → Instr) :
    (∃ i, withDigit w dmax arg form = .run i) ∨ withDigit w dmax arg form = .reject .unrecognizedArgument :=
  (Classical.em _).imp withDigit_accepts.mpr (withDigit_reject form)

/-- R64 (c): after a defined letter the argument alone can be at fault. -/
theorem decodePair_cases {op : Byte} (hop : WellFormed.letterDefined op = true) (arg : Byte) :
    (∃ i, decodePair op arg = .run i) ∨ decodePair op arg = .reject .unrecognizedArgument := by
  rcases letterDefined_iff.mp hop with rfl | rfl | rfl | rfl | rfl | rfl
  · exact withDigit_cases 2 3 arg .setContinuousMode
  · exact withDigit_cases 2 3 arg .setBurstMode
  · exact (Classical.em _).imp decodeRunState_accepts.mpr decodeRunState_reject
  · exact (Classical.em _).imp decodeTriggerMode_accepts.mpr fun h => decodeTriggerMode_reject (by simpa using h)
  · exact withDigit_cases 1 1 arg .setAuxOutput
  · exact withDigit_cases 2 3 arg .setChannel

/-- R206: an undefined letter, with or without an argument. -/
theorem decodeLine_undefined {op : Byte} (h : ¬WellFormed.letterDefined op = true) (rest : List Byte) :
    decodeLine (op :: rest) = .reject .unrecognizedCommand := by
  cases rest with
  | nil => rw [decodeLine, if_neg h]
  | cons arg rest => exact decodePair_undefined h arg

/-- R207: a defined letter without an argument. -/
theorem decodeLine_letter_alone {op : Byte} (h : WellFormed.letterDefined op = true) :
    decodeLine [op] = .reject .unrecognizedArgument := by
  rw [decodeLine, if_pos h]

/-- R207: a defined letter with an argument that no command has. -/
theorem decodePair_no_command {op arg : Byte} (hop : WellFormed.letterDefined op = true) (h : ∀ i, encode i ≠ [op, arg]) :
    decodePair op arg = .reject .unrecognizedArgument :=
  (decodePair_cases hop arg).resolve_left fun ⟨i, hi⟩ => h i (encode_of_decodePair hi)

/-- Settles O3: the decoder's answer for each form, and every rejected line does nothing (R155). -/
theorem ignoredLinesAreRejectedByName : Obligations.IgnoredLinesAreRejectedByName := by
  refine ⟨?empty, ?command, ?missing, ?argument⟩
  case empty => exact ⟨rfl, dispatchesNothing_of_reject rfl⟩
  case command =>
    intro op rest hop
    have hd := decodeLine_undefined (mt mem_letters_iff.mpr hop) rest
    exact ⟨hd, dispatchesNothing_of_reject hd⟩
  case missing =>
    intro op hop
    have hd := decodeLine_letter_alone (mem_letters_iff.mp hop)
    exact ⟨hd, dispatchesNothing_of_reject hd⟩
  case argument =>
    intro op arg rest hop hne
    exact decodeLine_reject_of_pair rest (decodePair_no_command (mem_letters_iff.mp hop) hne)

end Sys2Proof.Machine
end

section
/-! PROOFS. O26: a line that overflows (43_protocol_codec.md R153, 60_exceptions.md R205). -/

namespace Sys2Proof.Machine

/-- R152, R153: the bytes that fill the line, whatever it holds already, are taken one by one, and the last of them empties it. -/
theorem runSteps_overflow {s : State} {b : Byte} {bytes rest : List Byte} (hs : s.schedule = []) (hh : s.txHeld = [])
    (hp : s.phase = .drain) (hfill : s.lineLen + (bytes.length + 1) = Config.lineMax) (hnl : newline ∉ b :: bytes)
    (hrx : s.rx = b :: bytes ++ rest) :
    ∃ line, runSteps (bytes.length + 1) s = .next { s with rx := rest, line := line, lineLen := 0 } := by
  induction bytes generalizing s b with
  | nil =>
    have hstore := coreStep_store hh hp hrx (List.ne_of_not_mem_cons hnl).symm (by omega)
    rw [if_pos (by exact hfill)] at hstore
    exact ⟨_, runSteps_next 0 hs hstore⟩
  | cons c bytes ih =>
    have hstore := coreStep_store hh hp hrx (List.ne_of_not_mem_cons hnl).symm (by omega)
    rw [List.length_cons] at hfill
    rw [if_neg (by omega)] at hstore
    obtain ⟨line, hrun⟩ := ih (s := { s with
      rx := c :: bytes ++ rest, line := Memory.write s.line s.lineLen b, lineLen := s.lineLen + 1 })
      hs hh hp (by simp only; omega) (List.not_mem_of_not_mem_cons hnl) rfl
    exact ⟨line, (runSteps_next _ hs hstore).trans hrun⟩

/-- Settles O26: a line that is empty is full with the sixteenth byte. -/
theorem sixteenBytesOverflow : Obligations.SixteenBytesOverflow := by
  intro s bytes rest hs hh hp hlen hcount hnl hrx
  obtain ⟨b, bytes, rfl⟩ := List.exists_cons_of_length_eq_add_one hcount
  have hfill : s.lineLen + (bytes.length + 1) = Config.lineMax := by rw [hlen, Nat.zero_add]; exact hcount
  obtain ⟨line, hrun⟩ := runSteps_overflow hs hh hp hfill hnl hrx
  rw [show bytes.length + 1 = 16 from hcount, ← hlen] at hrun
  exact ⟨line, hrun⟩

end Sys2Proof.Machine
end

section
/-! PROOFS. O49: a power-on event (70_reset_and_hazards.md R230, R233; log 13). -/

namespace Sys2Proof.Machine

/-- Settles O49: a power-on turn performs `powerOn` on the state whose schedule holds the turns after it. -/
theorem powerOnRestoresReset : Obligations.PowerOnRestoresReset := by
  intro s rest hs
  calc step s = .next (powerOn { s with schedule := rest }) := step_of_turn hs
    _ = .next { State.resetOf s.params with adcDraws := s.adcDraws, schedule := rest } := rfl

end Sys2Proof.Machine
end
